-- ==== Sys2Proof/Word.lean ====
section
/-! DEFINITION. The width types of 00_scope.md R10. -/

namespace Sys2Proof

/-- `u1`: one bit. -/
abbrev Bit := BitVec 1

/-- `u8`: one register byte. -/
abbrev Byte := BitVec 8

/-- `u15`: the RTD ratio field (R7, `RATIO_BITS`). -/
abbrev Ratio := BitVec 15

/-- `u16`: the bits of a two-byte register. -/
abbrev U16 := BitVec 16

/-- `s16`: sixteen bits read as two's complement, the number being `BitVec.toInt` (R10: `as_s16` and
`as_u16` leave the bits unchanged). -/
abbrev S16 := BitVec 16

/-- The bits of an IEEE 754 binary32 number (R7, `SCALED_FORMAT`). -/
abbrev Binary32 := BitVec 32

end Sys2Proof
end

