-- ==== Sys2Proof/Config.lean ====
section
/-! DEFINITION. The fixed parameters of 00_scope.md R7, the one parameter the model exposes (R9), and the
free value of a device read (20_memory.md R44). -/

namespace Sys2Proof.Config

/-- `ADDR_CONFIG` (R7). -/
def addrConfig : Byte := 0x00
/-- `ADDR_RTD`, the address of RTD_H; RTD_L follows it (R7, R47). -/
def addrRtd : Byte := 0x01
/-- `ADDR_HIGH_FAULT`, the address of HIGH_FAULT_H (R7, R47). -/
def addrHighFault : Byte := 0x03
/-- `ADDR_LOW_FAULT`, the address of LOW_FAULT_H (R7, R47). -/
def addrLowFault : Byte := 0x05
/-- `ADDR_FAULT_STATUS` (R7). No controller operation issues it (R33). -/
def addrFaultStatus : Byte := 0x07

/-- How many register addresses the device has: 0x00 to 0x07 (R28, R52). -/
def registerCount : Nat := 8

/-- `T_BIAS_MS`, the bias settling delay (R7, R106). -/
def tBiasMs : Nat := 10
/-- `T_CONV_MS`, the one-shot conversion delay (R7, R109). -/
def tConvMs : Nat := 50

/-- `P_AUTO_RECHECK`: step 4 runs in AUTO mode too (R9, R111, 90_conflicts.md C4). The spec's value;
the read sequence takes it as an argument (log 16). -/
def autoRecheck : Bool := true

/-- FREE VALUE. The `n`-th byte the device answers where no answer is scripted: "any byte values, under no
law the block relies on" (R44). It has no body, so nothing can be proved of it (log 3). -/
opaque deviceByte : Nat → Byte

end Sys2Proof.Config
end

