-- ==== Sys2Proof/Syntax.lean ====
section
/-! DEFINITION. The operations of 30_encoding.md R75, the CONFIG record (R29), the field value names
(00_scope.md R17) and the command as the host hands it over (R74). -/

namespace Sys2Proof

/-- The CONFIG field record (R11, R29), every field at its width, so that no field can overflow into a
neighbour (R77). -/
structure CfgRecord where
  vbias       : Bit
  convMode    : Bit
  oneshot     : Bit
  nwires      : Bit
  faultDetect : BitVec 2
  faultClear  : Bit
  mainsfilter : Bit
  deriving DecidableEq, Repr

/-- `conv_mode` (R17, R65). -/
inductive ConvMode where
  | auto | oneshot
  deriving DecidableEq, Repr

/-- The 3-valued wiring selector of the source's interface (R78). -/
inductive Wiring where
  | two | three | four
  deriving DecidableEq, Repr

/-- `fault_detect` (R17, R67). -/
inductive FaultDetect where
  | none | auto | manual1 | manual2
  deriving DecidableEq, Repr

/-- `fault_clear` (R17, R68). -/
inductive FaultClear where
  | auto | manual
  deriving DecidableEq, Repr

/-- `mainsfilter` (R17, R69). -/
inductive MainsFilter where
  | hz50 | hz60
  deriving DecidableEq, Repr

/-- The twelve operations with their operands at the widths of R75, one constructor per row. -/
inductive Instr where
  /-- CFG_ENC (R85). -/
  | cfgEnc (c : CfgRecord)
  /-- CFG_DEC (R86). -/
  | cfgDec (b : Byte)
  /-- RTD_ENC (R87). -/
  | rtdEnc (ratio : Ratio) (fault : Bit)
  /-- RTD_DEC (R88). -/
  | rtdDec (b0 b1 : Byte)
  /-- THR_ENC (R89). -/
  | thrEnc (t : S16)
  /-- THR_DEC (R90). -/
  | thrDec (b0 b1 : Byte)
  /-- FLT_ENC (R91). -/
  | fltEnc (raw : Byte)
  /-- FLT_DEC (R92). -/
  | fltDec (b0 : Byte)
  /-- INIT (R98). `nwires` is the code the wiring selector maps to (R78). -/
  | init (thresholdMin thresholdMax : S16) (nwires : Bit) (faultDetect : BitVec 2)
      (faultClear filter convMode : Bit)
  /-- DEINIT (R102). -/
  | deinit
  /-- READ_RAW (R103). -/
  | readRaw
  /-- READ_SCALED (R117). -/
  | readScaled
  deriving DecidableEq, Repr

/-- The operation an instruction names, without its operands (the rows of R75). -/
inductive Opcode where
  | cfgEnc | cfgDec | rtdEnc | rtdDec | thrEnc | thrDec | fltEnc | fltDec
  | init | deinit | readRaw | readScaled
  deriving DecidableEq, Repr

/-- A command as the host issues it: one 8-bit selector and an operand record (R74). The record is the list
of its fields' values in the order of R75, each the field's bits as a number; a number can be wider than
the field, and such a command is refused, never truncated (R77). See log 1. -/
structure Command where
  selector : Byte
  operands : List Nat
  deriving DecidableEq, Repr

end Sys2Proof
end

