-- ==== Sys2Proof/Decode.lean ====
section
/-! DEFINITION. From a command to an instruction, total and refusing by name, and back (30_encoding.md R74 to
R77, R80). -/

namespace Sys2Proof

/-- The selector of an operation (R75). -/
def Opcode.selector : Opcode → Byte
  | .cfgEnc => 0x01
  | .cfgDec => 0x02
  | .rtdEnc => 0x03
  | .rtdDec => 0x04
  | .thrEnc => 0x05
  | .thrDec => 0x06
  | .fltEnc => 0x07
  | .fltDec => 0x08
  | .init => 0x10
  | .deinit => 0x11
  | .readRaw => 0x12
  | .readScaled => 0x13

/-- The widths of an operation's operand fields, in the order of R75. -/
def Opcode.widths : Opcode → List Nat
  | .cfgEnc => [1, 1, 1, 1, 2, 1, 1]
  | .cfgDec => [8]
  | .rtdEnc => [15, 1]
  | .rtdDec => [8, 8]
  | .thrEnc => [16]
  | .thrDec => [8, 8]
  | .fltEnc => [8]
  | .fltDec => [8]
  | .init => [16, 16, 1, 2, 1, 1, 1]
  | .deinit => []
  | .readRaw => []
  | .readScaled => []

/-- The rows of R75, in the table's order. -/
def Opcode.all : List Opcode :=
  [.cfgEnc, .cfgDec, .rtdEnc, .rtdDec, .thrEnc, .thrDec, .fltEnc, .fltDec,
   .init, .deinit, .readRaw, .readScaled]

/-- The operation a selector names; none for a reserved selector (R76). The mask of every row is 0xFF. -/
def Opcode.ofSelector (sel : Byte) : Option Opcode :=
  Opcode.all.find? fun op => op.selector == sel

/-- Every value lies in its field's width, and there are as many values as fields (R77). -/
def operandsFit : List Nat → List Nat → Bool
  | [], [] => true
  | w :: ws, v :: vs => decide (v < 2 ^ w) && operandsFit ws vs
  | _, _ => false

/-- The instruction an operation makes of its operand values; none where the record has not exactly the
fields of R75. -/
def Opcode.build : Opcode → List Nat → Option Instr
  | .cfgEnc, [vb, cm, os, nw, fd, fc, mf] =>
    some (.cfgEnc ⟨BitVec.ofNat 1 vb, BitVec.ofNat 1 cm, BitVec.ofNat 1 os, BitVec.ofNat 1 nw,
      BitVec.ofNat 2 fd, BitVec.ofNat 1 fc, BitVec.ofNat 1 mf⟩)
  | .cfgDec, [b] => some (.cfgDec (BitVec.ofNat 8 b))
  | .rtdEnc, [r, f] => some (.rtdEnc (BitVec.ofNat 15 r) (BitVec.ofNat 1 f))
  | .rtdDec, [b0, b1] => some (.rtdDec (BitVec.ofNat 8 b0) (BitVec.ofNat 8 b1))
  | .thrEnc, [t] => some (.thrEnc (BitVec.ofNat 16 t))
  | .thrDec, [b0, b1] => some (.thrDec (BitVec.ofNat 8 b0) (BitVec.ofNat 8 b1))
  | .fltEnc, [raw] => some (.fltEnc (BitVec.ofNat 8 raw))
  | .fltDec, [b0] => some (.fltDec (BitVec.ofNat 8 b0))
  | .init, [tmin, tmax, nw, fd, fc, fl, cm] =>
    some (.init (BitVec.ofNat 16 tmin) (BitVec.ofNat 16 tmax) (BitVec.ofNat 1 nw)
      (BitVec.ofNat 2 fd) (BitVec.ofNat 1 fc) (BitVec.ofNat 1 fl) (BitVec.ofNat 1 cm))
  | .deinit, [] => some .deinit
  | .readRaw, [] => some .readRaw
  | .readScaled, [] => some .readScaled
  | _, _ => none

/-- Why a command is no instruction. -/
inductive DecodeError where
  /-- The selector is not of R75 (R76). -/
  | reservedSelector
  /-- The operand record has not exactly the fields of R75 (R77; log 1). -/
  | operandCount
  /-- A value lies outside its field's width (R77). -/
  | operandWidth
  deriving DecidableEq, Repr

/-- Decoding: total, and no operand is truncated (R74 to R77). -/
def decode (c : Command) : Except DecodeError Instr :=
  match Opcode.ofSelector c.selector with
  | none => .error .reservedSelector
  | some op =>
    match op.build c.operands with
    | none => .error .operandCount
    | some i => if operandsFit op.widths c.operands then .ok i else .error .operandWidth

/-- The operation of an instruction. -/
def Instr.opcode : Instr → Opcode
  | .cfgEnc _ => .cfgEnc
  | .cfgDec _ => .cfgDec
  | .rtdEnc _ _ => .rtdEnc
  | .rtdDec _ _ => .rtdDec
  | .thrEnc _ => .thrEnc
  | .thrDec _ _ => .thrDec
  | .fltEnc _ => .fltEnc
  | .fltDec _ => .fltDec
  | .init _ _ _ _ _ _ _ => .init
  | .deinit => .deinit
  | .readRaw => .readRaw
  | .readScaled => .readScaled

/-- The operand values of an instruction, in the order of R75. -/
def Instr.operandValues : Instr → List Nat
  | .cfgEnc c => [c.vbias.toNat, c.convMode.toNat, c.oneshot.toNat, c.nwires.toNat,
      c.faultDetect.toNat, c.faultClear.toNat, c.mainsfilter.toNat]
  | .cfgDec b => [b.toNat]
  | .rtdEnc r f => [r.toNat, f.toNat]
  | .rtdDec b0 b1 => [b0.toNat, b1.toNat]
  | .thrEnc t => [t.toNat]
  | .thrDec b0 b1 => [b0.toNat, b1.toNat]
  | .fltEnc raw => [raw.toNat]
  | .fltDec b0 => [b0.toNat]
  | .init tmin tmax nw fd fc fl cm => [tmin.toNat, tmax.toNat, nw.toNat, fd.toNat, fc.toNat,
      fl.toNat, cm.toNat]
  | .deinit => []
  | .readRaw => []
  | .readScaled => []

/-- The command of an instruction: its selector and its operand record (R74, R75). -/
def encode (i : Instr) : Command := ⟨i.opcode.selector, i.operandValues⟩

/-- The command of a row of opcode_table.json: the table gives a row its 8 selector bits and its operands no
bits, so every operand value is 0. -/
def Command.ofTableWord (nbits w : Nat) : Command :=
  let sel : Byte := BitVec.ofNat 8 (w % 2 ^ nbits)
  ⟨sel, match Opcode.ofSelector sel with
    | none => []
    | some op => op.widths.map fun _ => 0⟩

/-- The instruction the decoder reads from a table row's word; none where it refuses. A word with bits
above the selector is no command of the table. -/
def decodeTableWord (nbits w : Nat) : Option Instr :=
  if w % 2 ^ nbits < 2 ^ 8 then
    match decode (Command.ofTableWord nbits w) with
    | .ok i => some i
    | .error _ => none
  else none

end Sys2Proof
end

