-- ==== Sys2Proof/Machine/RegisterCodec.lean ====
section
/-! DEFINITION. The RegisterCodec: pure packing and unpacking of the device registers, by explicit masks and
shifts (40_codec.md R85 to R92, 30_encoding.md R59 to R64, R70). -/

namespace Sys2Proof.Machine

/-- `CFG_ENC` (R60, R85). -/
def cfgEnc (c : CfgRecord) : Byte :=
  c.vbias.setWidth 8 <<< 7 ||| c.convMode.setWidth 8 <<< 6 ||| c.oneshot.setWidth 8 <<< 5
    ||| c.nwires.setWidth 8 <<< 4 ||| c.faultDetect.setWidth 8 <<< 2
    ||| c.faultClear.setWidth 8 <<< 1 ||| c.mainsfilter.setWidth 8

/-- `CFG_DEC` (R61, R86). -/
def cfgDec (b : Byte) : CfgRecord where
  vbias := b.extractLsb' 7 1
  convMode := b.extractLsb' 6 1
  oneshot := b.extractLsb' 5 1
  nwires := b.extractLsb' 4 1
  faultDetect := b.extractLsb' 2 2
  faultClear := b.extractLsb' 1 1
  mainsfilter := b.extractLsb' 0 1

/-- The 16-bit value of a byte pair in ascending addresses: big-endian (R47). -/
def joinBytes (b0 b1 : Byte) : U16 := b0.setWidth 16 <<< 8 ||| b1.setWidth 16

/-- Bits 15:8, the byte of the lower address (R47). -/
def highByte (w : U16) : Byte := w.extractLsb' 8 8

/-- Bits 7:0, the byte of the higher address (R47). -/
def lowByte (w : U16) : Byte := w.extractLsb' 0 8

/-- `RTD_ENC` (R63, R87): RTD_H and RTD_L. -/
def rtdEnc (ratio : Ratio) (fault : Bit) : Byte × Byte :=
  let w : U16 := fault.setWidth 16 <<< 15 ||| ratio.setWidth 16
  (highByte w, lowByte w)

/-- `RTD_DEC` (R62, R88): the ratio and the fault flag of RTD_H and RTD_L. -/
def rtdDec (b0 b1 : Byte) : Ratio × Bit :=
  let w := joinBytes b0 b1
  (w.extractLsb' 0 15, w.extractLsb' 15 1)

/-- `THR_ENC` (R64, R89): the `_H` and the `_L` byte, with no shift (90_conflicts.md C1). -/
def thrEnc (t : S16) : Byte × Byte := (highByte t, lowByte t)

/-- `THR_DEC` (R64, R90). -/
def thrDec (b0 b1 : Byte) : S16 := joinBytes b0 b1

/-- `FLT_ENC` (R70, R91). -/
def fltEnc (raw : Byte) : List Byte := [raw]

/-- `FLT_DEC` (R70, R92). -/
def fltDec (b0 : Byte) : Byte := b0

end Sys2Proof.Machine
end

