-- ==== Sys2Proof/Machine/Flags.lean ====
section
/-! DEFINITION. The block has no condition codes; the flags the source names are fields of device registers
(10_state.md R27). These are the tests the controller makes of them. -/

namespace Sys2Proof.Machine

/-- The not-finished test of step 4: CONFIG.oneshot is still set (R71, R111). -/
def notFinished (b : Byte) : Bool := (cfgDec b).oneshot == 1

/-- The mode test of step 3: `conv_mode` is ONESHOT (R65, R71, R107). -/
def isOneshotMode (mode : Bit) : Bool := mode == 0

/-- The RTD fault flag is set (R31, R114). -/
def rtdFaulted (fault : Bit) : Bool := fault == 1

end Sys2Proof.Machine
end

