-- ==== Sys2Proof/Machine/Operands.lean ====
section
/-! DEFINITION. Operand assembly (30_encoding.md, section 2), the field codes (R65 to R69), the CONFIG
transforms of READ_RAW (R71) and the conversion of READ_SCALED (41_sequencer.md R118). -/

namespace Sys2Proof.Machine

/-- R65. -/
def convModeCode : ConvMode → Bit
  | .auto => 1
  | .oneshot => 0

/-- R66, R78: TWO and FOUR are one value. -/
def wiringCode : Wiring → Bit
  | .two => 0
  | .three => 1
  | .four => 0

/-- R67. -/
def faultDetectCode : FaultDetect → BitVec 2
  | .none => 0b00
  | .auto => 0b01
  | .manual1 => 0b10
  | .manual2 => 0b11

/-- R68. -/
def faultClearCode : FaultClear → Bit
  | .auto => 1
  | .manual => 0

/-- R69. -/
def mainsFilterCode : MainsFilter → Bit
  | .hz50 => 1
  | .hz60 => 0

/-- The CONFIG record INIT writes: bias off, no trigger, the operands elsewhere (R98, R99). -/
def initConfig (nwires : Bit) (faultDetect : BitVec 2) (faultClear filter convMode : Bit) :
    CfgRecord where
  vbias := 0
  convMode := convMode
  oneshot := 0
  nwires := nwires
  faultDetect := faultDetect
  faultClear := faultClear
  mainsfilter := filter

/-- Step 2 on a CONFIG byte: set `vbias`, clear `oneshot`, `fault_detect` and `fault_clear` (R105). -/
def biasEnableByte (b : Byte) : Byte :=
  cfgEnc { cfgDec b with vbias := 1, oneshot := 0, faultDetect := 0b00, faultClear := 0 }

/-- Step 3 on a CONFIG byte: set `oneshot` (R108). -/
def triggerByte (b : Byte) : Byte := cfgEnc { cfgDec b with oneshot := 1 }

/-- Step 6 on a CONFIG byte: clear `vbias` (R113). -/
def biasDisableByte (b : Byte) : Byte := cfgEnc { cfgDec b with vbias := 0 }

/-- READ_RAW's present result: the ratio zero-extended (R72). -/
def ratioResult (ratio : Ratio) : S16 := ratio.setWidth 16

/-- Step 7: no value where the fault flag is set (R114). -/
def stepSeven (ratio : Ratio) (fault : Bit) : Option S16 :=
  if rtdFaulted fault then none else some (ratioResult ratio)

/-- `to_binary32` (R118): the binary32 of equal value, exact for every s16. Sign, biased exponent of the
leading bit, and the bits below it left-justified in the 23-bit fraction. -/
def toBinary32 (v : S16) : Binary32 :=
  let mag := v.toInt.natAbs
  if mag = 0 then 0
  else
    let e := Nat.log2 mag
    BitVec.ofNat 32
      ((if v.toInt < 0 then 2 ^ 31 else 0) + (127 + e) * 2 ^ 23 + (mag - 2 ^ e) * 2 ^ (23 - e))

end Sys2Proof.Machine
end

