-- ==== Sys2Proof/Machine/State.lean ====
section
/-! DEFINITION. The state of the block, of the device behind the transport and of the host's moves, as plain
data (10_state.md), with the machine right after reset (R36, R138). -/

namespace Sys2Proof.Machine

/-- The sequencer positions of R23. -/
inductive SeqPos where
  | idle | check | biasRd | biasWr | settle | trigRd | trigWr | conv | doneRd | rtdRd | unbiasRd
  | unbiasWr | result
  deriving DecidableEq, Repr

/-- The working registers of R22. -/
inductive WorkReg where
  | modeL | cWork | rtdRatio | rtdFault
  deriving DecidableEq, Repr

/-- One element of a trace (R13). The width `n` of `RD(addr, n)` and `WR(addr, n, bytes)` is the number of
bytes listed; the first byte is of address `addr` (R41, R42). -/
inductive Event where
  /-- `RD(addr, n) -> bytes`. -/
  | rd (addr : Byte) (bytes : List Byte)
  /-- `WR(addr, n, bytes)`. -/
  | wr (addr : Byte) (bytes : List Byte)
  /-- `DLY(ms)`. -/
  | dly (ms : Nat)
  deriving DecidableEq, Repr

/-- The result of an operation (R75, R123): the absent value carries no cause (R124). -/
inductive Result where
  /-- `OK`, of INIT and DEINIT. -/
  | ok
  /-- `NONE`. -/
  | noValue
  /-- `SOME(s16)`, of READ_RAW. -/
  | raw (v : S16)
  /-- `SOME(binary32)`, of READ_SCALED. -/
  | scaled (v : Binary32)
  /-- `u8`, of CFG_ENC and FLT_DEC. -/
  | byte (b : Byte)
  /-- A byte sequence, of RTD_ENC, THR_ENC and FLT_ENC. -/
  | byteSeq (bs : List Byte)
  /-- A CONFIG field record, of CFG_DEC. -/
  | config (c : CfgRecord)
  /-- `ratio : u15, fault : u1`, of RTD_DEC. -/
  | rtd (ratio : Ratio) (fault : Bit)
  /-- `s16`, of THR_DEC. -/
  | threshold (t : S16)
  deriving DecidableEq, Repr

/-- The reasons of R126. -/
inductive RefuseReason where
  | concurrentCall | destroyedInFlight | movedFrom | reservedSelector | operandWidth
  deriving DecidableEq, Repr

/-- How an operation ended: it returned a result (R130), or it was refused (R126). -/
inductive OpOutcome where
  | returned (r : Result)
  | refused (reason : RefuseReason)
  deriving DecidableEq, Repr

/-- What answers the block's reads (R133; the parameter `DeviceOracle` of D10). -/
inductive Device where
  /-- Any device at all (R44): the bytes it will answer next, and after them free values. -/
  | oracle (answers : List Byte)
  /-- The reference device of R58 with its `conv_ok` and `rtd_src`; its `reg[0..7]` is `State.mem`. -/
  | refDev (convOk : Bool) (rtdSrc : Byte × Byte)
  deriving DecidableEq, Repr

/-- What the host does (R133, R134; logs 2, 6 and 12). -/
inductive HostMove where
  /-- A blocking call: the operation runs to its return before the host moves again (R53, R97). -/
  | call (c : Command)
  /-- The same command from a caller the host does not wait for: a read then runs position by position, so
  the next move can land while it is in progress (R126). -/
  | issue (c : Command)
  /-- The host lets the block go on. -/
  | wait
  /-- Ownership of the instance is moved away (R26). -/
  | moveAway
  /-- The instance is destroyed (R143). -/
  | destroy
  /-- A new instance is created on the transport (R138). -/
  | create
  deriving DecidableEq, Repr

/-- The device register file: address and byte, addresses strictly rising. An address that is not listed
has no value, because the content of a register before it is written is unknown (R35; log 4). -/
abbrev Memory := List Host.Cell

/-- The whole machine. The docstring of a field names its rule and its value at reset. -/
structure State where
  /-- `blk.initialized` (R20). -/
  initialized : Bool
  /-- `blk.live` (R26). -/
  live : Bool
  /-- `blk.refused`, sticky (R25). -/
  refused : Bool
  /-- `blk.seq` (R23). -/
  seq : SeqPos
  /-- `mode_l`, or no value (R22). -/
  modeL : Option Bit
  /-- `c_work`, or no value (R22). -/
  cWork : Option Byte
  /-- `rtd_ratio`, or no value (R22). -/
  rtdRatio : Option Ratio
  /-- `rtd_fault`, or no value (R22). -/
  rtdFault : Option Bit
  /-- The trace since creation, oldest first (R13, R36; log 8). -/
  trace : List Event
  /-- The device register file as the block's writes leave it (R28, R41; log 4). -/
  mem : Memory
  /-- The device behind the transport (R44, R58; log 3). -/
  device : Device
  /-- The model's own: how many bytes the device has answered (log 3). -/
  draws : Nat
  /-- The model's own: how the last operation ended (R13 part 2; log 8). -/
  outcome : Option OpOutcome
  /-- The model's own: the host's moves still to come (R74; log 2). -/
  inbox : List HostMove
  /-- The model's own: the read in progress is a READ_SCALED (R117; log 6). -/
  scaled : Bool
  /-- The model's own: the instance has been destroyed (R143; log 12). -/
  destroyed : Bool
  deriving DecidableEq, Repr

/-- What stops the machine with a fault. -/
inductive Fault where
  /-- A working register that holds no value was read (R22: the model "must fault rather than supply a
  value"). Raised by the sequencer's positions; safe. No run from a state of `State.Inv` meets it. -/
  | unwrittenRegister (r : WorkReg)
  deriving DecidableEq, Repr

/-- What has no meaning. -/
inductive Refusal where
  /-- An instruction whose meaning is not written; raised by `exec` alone; safe. -/
  | notModelled (mnemonic : String)
  /-- Anything at all on an instance with `blk.refused = 1`: "The model gives the instance no further
  meaning" (R126). Raised by `step` and by every meaning; safe (log 5). -/
  | refusedInstance
  /-- A command, a move or a second destruction on a destroyed instance, which the host must not do
  (R134, duty 2). Raised by every meaning and the host's moves; safe (log 12). -/
  | instanceDestroyed
  /-- Moving the instance away while an operation is in progress; the spec says nothing of it. Raised by
  the host's moves; safe (log 12). -/
  | movedInFlight
  /-- Creating a second instance on a transport that an instance owns (R132, R133). Raised by the host's
  moves; safe (log 12). -/
  | transportOwned
  deriving DecidableEq, Repr

/-- The machine right after reset: R36 for the block; for the model's own fields and the device, logs 2, 3,
4, 6, 8 and 12. -/
def State.reset : State where
  initialized := false
  live := true
  refused := false
  seq := .idle
  modeL := none
  cWork := none
  rtdRatio := none
  rtdFault := none
  trace := []
  mem := []
  device := .oracle []
  draws := 0
  outcome := none
  inbox := []
  scaled := false
  destroyed := false

end Sys2Proof.Machine
end

