-- ==== Sys2Proof/Machine/Ops.lean ====
section
/-! DEFINITION. The named operations over the device register file, the transport and the block's state:
memory, the device's answers, the four transport primitives (20_memory.md R40), the delay (R46), and how an
operation is accepted, returns and is refused (41_sequencer.md R97, 60_exceptions.md R126, R130). The block
takes no exception and returns from none (R123, R130, R131): `refuse` and `finish` are what stands there. -/

namespace Sys2Proof.Machine

/-! ### The device register file -/

/-- The listed addresses rise strictly. -/
def Memory.wf : Memory → Bool
  | [] => true
  | [_] => true
  | c :: d :: rest => decide (c.1 < d.1) && Memory.wf (d :: rest)

/-- The byte listed at an address, none where it is unknown (R35). -/
def Memory.read? : Memory → Nat → Option Byte
  | [], _ => none
  | c :: rest, a => if c.1 = a then some c.2 else Memory.read? rest a

/-- Write one byte, keeping the addresses rising. -/
def Memory.write : Memory → Nat → Byte → Memory
  | [], a, b => [(a, b)]
  | c :: rest, a, b =>
    if a < c.1 then (a, b) :: c :: rest
    else if a = c.1 then (a, b) :: rest
    else c :: Memory.write rest a b

/-- Write bytes at ascending addresses (R41). -/
def Memory.writeBytes : Memory → Nat → List Byte → Memory
  | m, _, [] => m
  | m, a, b :: bs => Memory.writeBytes (Memory.write m a b) (a + 1) bs

/-- The byte of the register file at an address, as it was last written. -/
def State.byteAt (s : State) (a : Nat) : Option Byte := Memory.read? s.mem a

/-! ### The device's answers -/

/-- The byte the device answers for one register address, and the machine after the answer (R42, R44). A
RefDev register that is not listed is unknown, so its answer is a free value (log 11). -/
def answerByte (s : State) (a : Nat) : Byte × State :=
  match s.device with
  | .oracle (b :: rest) => (b, { s with device := .oracle rest, draws := s.draws + 1 })
  | .oracle [] => (Config.deviceByte s.draws, { s with draws := s.draws + 1 })
  | .refDev _ _ =>
    ((Memory.read? s.mem a).getD (Config.deviceByte s.draws), { s with draws := s.draws + 1 })

/-- The pair the device answers for a 2-byte read, in ascending addresses (R42). RefDev answers a read of
RTD with `rtd_src` (R58 b). -/
def answerPair (s : State) (a : Nat) : (Byte × Byte) × State :=
  match s.device with
  | .refDev _ src =>
    if a = Config.addrRtd.toNat then (src, { s with draws := s.draws + 2 })
    else
      let x := answerByte s a
      let y := answerByte x.2 (a + 1)
      ((x.1, y.1), y.2)
  | .oracle _ =>
    let x := answerByte s a
    let y := answerByte x.2 (a + 1)
    ((x.1, y.1), y.2)

/-! ### The transport -/

/-- Append one element to the trace. -/
def emit (s : State) (e : Event) : State := { s with trace := s.trace ++ [e] }

/-- `read_byte(addr)`: `MemRead(addr, 1)` (R40, R42). -/
def readByte (s : State) (addr : Byte) : Byte × State :=
  let r := answerByte s addr.toNat
  (r.1, emit r.2 (.rd addr [r.1]))

/-- `read_bytes<2>(addr)`: `MemRead(addr, 2)` (R40, R42). -/
def readPair (s : State) (addr : Byte) : (Byte × Byte) × State :=
  let r := answerPair s addr.toNat
  (r.1, emit r.2 (.rd addr [r.1.1, r.1.2]))

/-- `write_byte` and `write_bytes`: `MemWrite(addr, n, bytes)` (R40, R41). -/
def memWrite (s : State) (addr : Byte) (bytes : List Byte) : State :=
  emit { s with mem := Memory.writeBytes s.mem addr.toNat bytes } (.wr addr bytes)

/-- The byte of the last CONFIG write of a trace. -/
def lastConfigWrite : List Event → Option Byte
  | [] => none
  | .wr a [b] :: rest =>
    match lastConfigWrite rest with
    | some c => some c
    | none => if a = Config.addrConfig then some b else none
  | _ :: rest => lastConfigWrite rest

/-- What RefDev does on a delay: it clears `oneshot` where the last CONFIG write set it and `conv_ok` is 1
(R58 c). -/
def refDevDelay (s : State) : State :=
  match s.device with
  | .oracle _ => s
  | .refDev convOk _ =>
    match lastConfigWrite s.trace, Memory.read? s.mem Config.addrConfig.toNat with
    | some w, some b =>
      if convOk && notFinished w then
        { s with mem := Memory.write s.mem Config.addrConfig.toNat (b &&& 0xDF) }
      else s
    | _, _ => s

/-- `Delay(ms)`: an element of the trace, transferring no data (R46). -/
def delay (s : State) (ms : Nat) : State := emit (refDevDelay s) (.dly ms)

/-! ### Accepting, returning, refusing -/

/-- `raise Refused(reason)`: set the sticky mark and issue nothing (R25, R126). -/
def refuse (reason : RefuseReason) (s : State) : State :=
  { s with refused := true, outcome := some (.refused reason) }

/-- `return v`: the operation ends, the sequencer is idle and the working registers are gone (R22, R24,
R119, R130). -/
def finish (r : Result) (s : State) : State :=
  { s with
    seq := .idle, modeL := none, cWork := none, rtdRatio := none, rtdFault := none,
    scaled := false, outcome := some (.returned r) }

/-- A command starts only on a live, idle instance; otherwise it is refused (R97, R126). An instance that
is refused or destroyed has no further meaning (R126; logs 5, 7 and 12). -/
def accept (s : State) (run : State → State) : Host.Outcome State Fault Refusal :=
  if s.destroyed then .refused .instanceDestroyed
  else if s.refused then .refused .refusedInstance
  else if !s.live then .next (refuse .movedFrom s)
  else if s.seq ≠ .idle then .next (refuse .concurrentCall s)
  else .next (run s)

end Sys2Proof.Machine
end

