-- ==== Sys2Proof/Machine/Codec.lean ====
section
/-! DEFINITION. The eight codec operations as commands: each returns the pure function's value and touches
neither `blk.initialized`, `blk.seq` nor the trace (40_codec.md R85 to R92, R95). -/

namespace Sys2Proof.Machine

/-- CFG_ENC (R85). -/
def execCfgEnc (c : CfgRecord) (s : State) : Host.Outcome State Fault Refusal :=
  accept s (finish (.byte (cfgEnc c)))

/-- CFG_DEC (R86). -/
def execCfgDec (b : Byte) (s : State) : Host.Outcome State Fault Refusal :=
  accept s (finish (.config (cfgDec b)))

/-- RTD_ENC (R87). -/
def execRtdEnc (ratio : Ratio) (fault : Bit) (s : State) : Host.Outcome State Fault Refusal :=
  accept s (finish (.byteSeq [(rtdEnc ratio fault).1, (rtdEnc ratio fault).2]))

/-- RTD_DEC (R88). -/
def execRtdDec (b0 b1 : Byte) (s : State) : Host.Outcome State Fault Refusal :=
  accept s (finish (.rtd (rtdDec b0 b1).1 (rtdDec b0 b1).2))

/-- THR_ENC (R89). -/
def execThrEnc (t : S16) (s : State) : Host.Outcome State Fault Refusal :=
  accept s (finish (.byteSeq [(thrEnc t).1, (thrEnc t).2]))

/-- THR_DEC (R90). -/
def execThrDec (b0 b1 : Byte) (s : State) : Host.Outcome State Fault Refusal :=
  accept s (finish (.threshold (thrDec b0 b1)))

/-- FLT_ENC (R91). -/
def execFltEnc (raw : Byte) (s : State) : Host.Outcome State Fault Refusal :=
  accept s (finish (.byteSeq (fltEnc raw)))

/-- FLT_DEC (R92). -/
def execFltDec (b0 : Byte) (s : State) : Host.Outcome State Fault Refusal :=
  accept s (finish (.byte (fltDec b0)))

end Sys2Proof.Machine
end

