-- ==== Sys2Proof/Machine/Conversion.lean ====
section
/-! DEFINITION. READ_RAW and READ_SCALED as one operation each, from the pseudocode of 41_sequencer.md R103
and R117. The same sequence position by position (R115) is in Machine/Sequencer.lean. -/

namespace Sys2Proof.Machine

/-- Step 2: bias enable and settling. Answers `mode_l` (R105 to R107). -/
def biasStep (s : State) : Bit × State :=
  let r := readByte s Config.addrConfig
  ((cfgDec r.1).convMode,
   delay (memWrite r.2 Config.addrConfig [biasEnableByte r.1]) Config.tBiasMs)

/-- Step 3: trigger and conversion wait (R108, R109). -/
def triggerStep (s : State) : State :=
  let r := readByte s Config.addrConfig
  delay (memWrite r.2 Config.addrConfig [triggerByte r.1]) Config.tConvMs

/-- Steps 5 to 7: readout, bias disable, result (R112 to R114). -/
def readoutSteps (s : State) : Option S16 × State :=
  let r := readPair s Config.addrRtd
  let d := rtdDec r.1.1 r.1.2
  let c := readByte r.2 Config.addrConfig
  (stepSeven d.1 d.2, memWrite c.2 Config.addrConfig [biasDisableByte c.1])

/-- Step 4 and on: the completion check, which leaves bias on where the conversion is not finished (R111). -/
def completionSteps (s : State) : Option S16 × State :=
  let r := readByte s Config.addrConfig
  if notFinished r.1 then (none, r.2) else readoutSteps r.2

/-- READ_RAW's sequence (R103 to R114). `recheck` is `P_AUTO_RECHECK`: whether step 4 runs in AUTO mode
(R9, R111; log 16). -/
def readRawSequence (recheck : Bool) (s : State) : Option S16 × State :=
  if s.initialized then
    let b := biasStep s
    if isOneshotMode b.1 then completionSteps (triggerStep b.2)
    else if recheck then completionSteps b.2
    else readoutSteps b.2
  else (none, s)

/-- The value of a READ_RAW (R75). -/
def rawResult : Option S16 → Result
  | none => .noValue
  | some v => .raw v

/-- The value of a READ_SCALED (R117). -/
def scaledResult : Option S16 → Result
  | none => .noValue
  | some v => .scaled (toBinary32 v)

/-- READ_RAW (R103). -/
def execReadRaw (s : State) : Host.Outcome State Fault Refusal :=
  accept s fun s =>
    let r := readRawSequence Config.autoRecheck s
    finish (rawResult r.1) r.2

/-- READ_SCALED (R117): one READ_RAW sequence, its result converted. -/
def execReadScaled (s : State) : Host.Outcome State Fault Refusal :=
  accept s fun s =>
    let r := readRawSequence Config.autoRecheck s
    finish (scaledResult r.1) r.2

/-- The causes of NONE (60_exceptions.md R124). The result does not carry them. -/
inductive NoneCause where
  /-- `E_NOT_INIT`. -/
  | notInit
  /-- `E_NOT_DONE`. -/
  | notDone
  /-- `E_RTD_FAULT`. -/
  | rtdFault
  deriving DecidableEq, Repr

/-- The cause of a NONE, told by how the trace of the operation ends (R124). -/
def noneCause (added : List Event) : NoneCause :=
  match added.getLast? with
  | none => .notInit
  | some (.rd _ _) => .notDone
  | some _ => .rtdFault

end Sys2Proof.Machine
end

