-- ==== Sys2Proof/Machine/Lifecycle.lean ====
section
/-! DEFINITION. INIT and DEINIT (41_sequencer.md R98 to R102). -/

namespace Sys2Proof.Machine

/-- The three writes of INIT, in their order (R98, R100). -/
def initWrites (thresholdMin thresholdMax : S16) (c : CfgRecord) (s : State) : State :=
  let hi := thrEnc thresholdMax
  let lo := thrEnc thresholdMin
  memWrite
    (memWrite (memWrite s Config.addrConfig [cfgEnc c]) Config.addrHighFault [hi.1, hi.2])
    Config.addrLowFault [lo.1, lo.2]

/-- INIT (R98): `blk.initialized` is set after the last write (R100), and the result is OK (R101). -/
def execInit (thresholdMin thresholdMax : S16) (nwires : Bit) (faultDetect : BitVec 2)
    (faultClear filter convMode : Bit) (s : State) : Host.Outcome State Fault Refusal :=
  accept s fun s =>
    finish .ok
      { initWrites thresholdMin thresholdMax
          (initConfig nwires faultDetect faultClear filter convMode) s with
        initialized := true }

/-- DEINIT (R102). -/
def execDeinit (s : State) : Host.Outcome State Fault Refusal :=
  accept s fun s => finish .ok { s with initialized := false }

end Sys2Proof.Machine
end

