-- ==== Sys2Proof/Machine/Dispatch.lean ====
section
/-! DEFINITION. One arm per operation of 30_encoding.md R75. -/

namespace Sys2Proof.Machine

def exec (i : Instr) (s : State) : Host.Outcome State Fault Refusal :=
  match i with
  | .cfgEnc c => Sys2Proof.Machine.execCfgEnc c s
  | .cfgDec b => Sys2Proof.Machine.execCfgDec b s
  | .rtdEnc ratio fault => Sys2Proof.Machine.execRtdEnc ratio fault s
  | .rtdDec b0 b1 => Sys2Proof.Machine.execRtdDec b0 b1 s
  | .thrEnc t => Sys2Proof.Machine.execThrEnc t s
  | .thrDec b0 b1 => Sys2Proof.Machine.execThrDec b0 b1 s
  | .fltEnc raw => Sys2Proof.Machine.execFltEnc raw s
  | .fltDec b0 => Sys2Proof.Machine.execFltDec b0 s
  | .init tmin tmax nw fd fc fl cm => Sys2Proof.Machine.execInit tmin tmax nw fd fc fl cm s
  | .deinit => Sys2Proof.Machine.execDeinit s
  | .readRaw => Sys2Proof.Machine.execReadRaw s
  | .readScaled => Sys2Proof.Machine.execReadScaled s

end Sys2Proof.Machine
end

