-- ==== Sys2Proof/Machine/Sequencer.lean ====
section
/-! DEFINITION. The sequencer, one position at a time: the transitions of 41_sequencer.md R115 over the
positions of 10_state.md R23 and the working registers of R22. -/

namespace Sys2Proof.Machine

/-- The source's conceptual states (R23; 90_conflicts.md C5: Idle does not imply that bias is off). -/
inductive ConceptualState where
  | idle | biasSettling | converting | readoutDone
  deriving DecidableEq, Repr

/-- The conceptual state of a position (the table of R23). -/
def conceptualState : SeqPos → ConceptualState
  | .idle => .idle
  | .check => .idle
  | .biasRd => .biasSettling
  | .biasWr => .biasSettling
  | .settle => .biasSettling
  | .trigRd => .converting
  | .trigWr => .converting
  | .conv => .converting
  | .doneRd => .converting
  | .rtdRd => .readoutDone
  | .unbiasRd => .readoutDone
  | .unbiasWr => .readoutDone
  | .result => .readoutDone

/-- A READ_RAW or READ_SCALED command is accepted: `S_IDLE` to `S_CHECK` (R115). -/
def startRead (scaled : Bool) (s : State) : State := { s with seq := .check, scaled := scaled }

/-- The read in progress returns its value (R114, R117). -/
def returnRead (v : Option S16) (s : State) : State :=
  finish (if s.scaled then scaledResult v else rawResult v) s

/-- Read a working register and go on with its value. One that holds no value faults: "If it ever does, it
must fault rather than supply a value" (R22). -/
def withReg {α : Type} (r : WorkReg) (v : Option α)
    (go : α → Host.Outcome State Fault Refusal) : Host.Outcome State Fault Refusal :=
  match v with
  | none => .fault (.unwrittenRegister r)
  | some x => go x

/-- `S_CHECK`, step 1 (R104). -/
def atCheck (s : State) : Host.Outcome State Fault Refusal :=
  if s.initialized then .next { s with seq := .biasRd } else .next (returnRead none s)

/-- `S_BIAS_RD`, step 2 (R105, R107). -/
def atBiasRd (s : State) : Host.Outcome State Fault Refusal :=
  let r := readByte s Config.addrConfig
  .next { r.2 with seq := .biasWr, cWork := some r.1, modeL := some (cfgDec r.1).convMode }

/-- `S_BIAS_WR`, step 2 (R105). -/
def atBiasWr (s : State) : Host.Outcome State Fault Refusal :=
  withReg .cWork s.cWork fun b =>
    .next { memWrite s Config.addrConfig [biasEnableByte b] with seq := .settle }

/-- Where the mode leads after settling (R107, R110, R111). -/
def afterSettle (recheck : Bool) (mode : Bit) : SeqPos :=
  if isOneshotMode mode then .trigRd else if recheck then .doneRd else .rtdRd

/-- `S_SETTLE`, step 2 (R106, R107). -/
def atSettle (recheck : Bool) (s : State) : Host.Outcome State Fault Refusal :=
  withReg .modeL s.modeL fun mode =>
    .next { delay s Config.tBiasMs with seq := afterSettle recheck mode }

/-- `S_TRIG_RD`, step 3 (R108). -/
def atTrigRd (s : State) : Host.Outcome State Fault Refusal :=
  let r := readByte s Config.addrConfig
  .next { r.2 with seq := .trigWr, cWork := some r.1 }

/-- `S_TRIG_WR`, step 3 (R108). -/
def atTrigWr (s : State) : Host.Outcome State Fault Refusal :=
  withReg .cWork s.cWork fun b =>
    .next { memWrite s Config.addrConfig [triggerByte b] with seq := .conv }

/-- `S_CONV`, step 3 (R109). -/
def atConv (s : State) : Host.Outcome State Fault Refusal :=
  .next { delay s Config.tConvMs with seq := .doneRd }

/-- `S_DONE_RD`, step 4 (R111). -/
def atDoneRd (s : State) : Host.Outcome State Fault Refusal :=
  let r := readByte s Config.addrConfig
  if notFinished r.1 then .next (returnRead none r.2)
  else .next { r.2 with seq := .rtdRd, cWork := some r.1 }

/-- `S_RTD_RD`, step 5 (R112). -/
def atRtdRd (s : State) : Host.Outcome State Fault Refusal :=
  let r := readPair s Config.addrRtd
  let d := rtdDec r.1.1 r.1.2
  .next { r.2 with seq := .unbiasRd, rtdRatio := some d.1, rtdFault := some d.2 }

/-- `S_UNBIAS_RD`, step 6 (R113). -/
def atUnbiasRd (s : State) : Host.Outcome State Fault Refusal :=
  let r := readByte s Config.addrConfig
  .next { r.2 with seq := .unbiasWr, cWork := some r.1 }

/-- `S_UNBIAS_WR`, step 6 (R113). -/
def atUnbiasWr (s : State) : Host.Outcome State Fault Refusal :=
  withReg .cWork s.cWork fun b =>
    .next { memWrite s Config.addrConfig [biasDisableByte b] with seq := .result }

/-- `S_RESULT`, step 7 (R114): a set fault flag returns NONE, and `rtd_ratio` is read only where it is clear
(the pseudocode of R103; the last two rows of R115). -/
def atResult (s : State) : Host.Outcome State Fault Refusal :=
  withReg .rtdFault s.rtdFault fun fault =>
    if rtdFaulted fault then .next (returnRead none s)
    else withReg .rtdRatio s.rtdRatio fun ratio => .next (returnRead (some (ratioResult ratio)) s)

/-- One position of the sequencer (R115). An idle block has no operation to go on with (log 10). -/
def advance (recheck : Bool) (s : State) : Host.Outcome State Fault Refusal :=
  match s.seq with
  | .idle => .next s
  | .check => atCheck s
  | .biasRd => atBiasRd s
  | .biasWr => atBiasWr s
  | .settle => atSettle recheck s
  | .trigRd => atTrigRd s
  | .trigWr => atTrigWr s
  | .conv => atConv s
  | .doneRd => atDoneRd s
  | .rtdRd => atRtdRd s
  | .unbiasRd => atUnbiasRd s
  | .unbiasWr => atUnbiasWr s
  | .result => atResult s

end Sys2Proof.Machine
end

