-- ==== Sys2Proof/Machine/HostMoves.lean ====
section
/-! DEFINITION. What a host's move does to the machine (60_exceptions.md R126, R133, R134; 70_reset_and_hazards.md
R138, R143; logs 2, 6, 7 and 12). -/

namespace Sys2Proof.Machine

/-- The reason a command that decodes to nothing is refused with (R76, R77; log 1). -/
def decodeReason : DecodeError → RefuseReason
  | .reservedSelector => .reservedSelector
  | .operandCount => .operandWidth
  | .operandWidth => .operandWidth

/-- A command that is no instruction: refused before anything else is asked (R76, R77, R128). -/
def refuseCommand (e : DecodeError) (s : State) : Host.Outcome State Fault Refusal :=
  if s.destroyed then .refused .instanceDestroyed
  else if s.refused then .refused .refusedInstance
  else .next (refuse (decodeReason e) s)

/-- A blocking call runs the whole operation (R53, R97). -/
def callCommand (c : Command) (s : State) : Host.Outcome State Fault Refusal :=
  match decode c with
  | .error e => refuseCommand e s
  | .ok i => exec i s

/-- A command issued without waiting: a read starts at `S_CHECK` and goes on position by position; every
other operation takes no position but `S_IDLE` and runs whole (R23, R115). -/
def issueCommand (c : Command) (s : State) : Host.Outcome State Fault Refusal :=
  match decode c with
  | .error e => refuseCommand e s
  | .ok .readRaw => accept s (startRead false)
  | .ok .readScaled => accept s (startRead true)
  | .ok i => exec i s

/-- Ownership is moved away (R26). An instance that was moved away before owns nothing to move, and the spec
says nothing of a second move: it leaves the instance as it is, `live` still 0 (DESIGN CHOICE, log 12). -/
def moveInstance (s : State) : Host.Outcome State Fault Refusal :=
  if s.destroyed then .refused .instanceDestroyed
  else if s.seq ≠ .idle then .refused .movedInFlight
  else .next { s with live := false }

/-- The instance is destroyed: no transaction (R143), refused while an operation is in progress (R126 b). A
moved-from instance is destroyed in the same way (DESIGN CHOICE, log 12). -/
def destroyInstance (s : State) : Host.Outcome State Fault Refusal :=
  if s.destroyed then .refused .instanceDestroyed
  else if s.seq ≠ .idle then .next (refuse .destroyedInFlight s)
  else .next { s with destroyed := true }

/-- The block's reset, which does not reset the device (R138, R139): the block's fields take their reset
values, the device's and the host's stay. -/
def resetBlock (s : State) : State :=
  { State.reset with mem := s.mem, device := s.device, draws := s.draws, inbox := s.inbox }

/-- A new instance is created on the transport a destroyed instance left. An instance that was moved away
took the transport with it, and a living one still owns it (R26, R132, R133, R138). -/
def createInstance (s : State) : Host.Outcome State Fault Refusal :=
  if s.destroyed && s.live then .next (resetBlock s) else .refused .transportOwned

/-- The block goes on with its operation, if it has one (R115). -/
def goOn (s : State) : Host.Outcome State Fault Refusal := advance Config.autoRecheck s

/-- One move of the host. -/
def hostMove (m : HostMove) (s : State) : Host.Outcome State Fault Refusal :=
  match m with
  | .call c => callCommand c s
  | .issue c => issueCommand c s
  | .wait => goOn s
  | .moveAway => moveInstance s
  | .destroy => destroyInstance s
  | .create => createInstance s

end Sys2Proof.Machine
end

