-- ==== Sys2Proof/Machine/Step.lean ====
section
/-! DEFINITION. One step of the machine: the host's next move, or one position of the operation in progress. -/

namespace Sys2Proof.Machine

/-- One step. A refused instance has no further meaning (R126, R127). With a move of the host pending, that
move is taken; otherwise the block goes on with its operation. -/
def step (s : State) : Host.Outcome State Fault Refusal :=
  if s.refused then .refused .refusedInstance
  else
    match s.inbox with
    | [] => goOn s
    | m :: rest => hostMove m { s with inbox := rest }

/-- The state whose next step runs the command of a table row: it is the host's next blocking call (log 2). -/
def State.withFetchWord (s : State) (nbits w : Nat) : State :=
  { s with inbox := .call (Command.ofTableWord nbits w) :: s.inbox }

end Sys2Proof.Machine
end

