-- ==== Sys2Proof/Machine/Assembler.lean ====
section
/-! DEFINITION. The textual syntax of commands (30_encoding.md R81, R82): one command a line, the mnemonic of
R75, then operands as `name=value` in any order, and `;` for a comment. Text is a list of characters. What
R81 leaves open is fixed in log 21. -/

namespace Sys2Proof.Machine.Assembler

/-- Why a line is no command. -/
inductive SyntaxError where
  | unknownMnemonic
  | badOperand
  | unknownName
  | repeatedOperand
  | missingOperand
  | badValue
  | valueOutsideWidth
  deriving DecidableEq, Repr

/-- A value as written: an integer, a byte list, or a value name of R17. -/
inductive Value where
  | int (v : Int)
  | bytes (vs : List Int)
  | name (n : List Char)
  deriving DecidableEq, Repr

/-- What an operand's value may be, and how many record fields it fills. -/
inductive FieldKind where
  /-- An unsigned field of a width, with the value names it may be written by. -/
  | unsigned (w : Nat) (names : List (List Char × Nat))
  /-- An `s16`: -32768 to 32767. -/
  | signed16
  /-- A list of so many bytes. -/
  | byteList (n : Nat)
  deriving DecidableEq, Repr

/-! ### Characters and numbers -/

/-- White space inside a line. -/
def isBlank (c : Char) : Bool := c == ' ' || c == '\t'

/-- Without the blanks at both ends. -/
def trim (cs : List Char) : List Char :=
  ((cs.dropWhile isBlank).reverse.dropWhile isBlank).reverse

/-- The value of a digit, none for another character. -/
def digit? (c : Char) : Option Nat :=
  if '0' ≤ c ∧ c ≤ '9' then some (c.toNat - '0'.toNat)
  else if 'a' ≤ c ∧ c ≤ 'f' then some (c.toNat - 'a'.toNat + 10)
  else if 'A' ≤ c ∧ c ≤ 'F' then some (c.toNat - 'A'.toNat + 10)
  else none

/-- The digits of a base, read on from `acc`. -/
def digits? (base : Nat) : Nat → List Char → Option Nat
  | acc, [] => some acc
  | acc, c :: cs =>
    match digit? c with
    | some d => if d < base then digits? base (acc * base + d) cs else none
    | none => none

/-- A decimal or `0x` hexadecimal number (R81); leading zeros are allowed (log 21). -/
def nat? : List Char → Option Nat
  | [] => none
  | ['0', 'x'] => none
  | '0' :: 'x' :: cs => digits? 16 0 cs
  | cs => digits? 10 0 cs

/-- A number with an optional minus sign (before a hexadecimal number too: log 21). -/
def int? : List Char → Option Int
  | '-' :: cs => (nat? cs).map fun n => -(n : Int)
  | cs => (nat? cs).map fun n => (n : Int)

/-- The pieces between separators, a separator inside brackets not counted; `cur` holds the piece being
read, backwards. -/
def splitTop (sep : Char) : Bool → List Char → List Char → List (List Char)
  | _, cur, [] => [cur.reverse]
  | inside, cur, c :: cs =>
    if c == sep && !inside then cur.reverse :: splitTop sep false [] cs
    else splitTop sep ((inside || c == '[') && c != ']') (c :: cur) cs

/-- All of them, or none. -/
def allSome {α : Type} : List (Option α) → Option (List α)
  | [] => some []
  | none :: _ => none
  | some a :: rest => (allSome rest).map (a :: ·)

/-- A value: a byte list in brackets, a number, or else a name. R81 writes the elements of a byte list as `0x`
hexadecimal only; that an element may be decimal too is the model's choice (DESIGN CHOICE, log 21). -/
def value? (cs : List Char) : Option Value :=
  match cs with
  | [] => none
  | '[' :: rest =>
    if rest.getLast? = some ']' then
      (allSome ((splitTop ',' false [] rest.dropLast).map fun t => int? (trim t))).map .bytes
    else none
  | _ =>
    match int? cs with
    | some v => some (.int v)
    | none => some (.name cs)

/-! ### The operands of each mnemonic -/

/-- The value names of `conv_mode` (R17, R65). -/
def convModeNames : List (List Char × Nat) :=
  [("AUTO".toList, (convModeCode .auto).toNat), ("ONESHOT".toList, (convModeCode .oneshot).toNat)]

/-- The value names of `nwires` (R17, R66, R78). -/
def wiringNames : List (List Char × Nat) :=
  [("TWO".toList, (wiringCode .two).toNat), ("THREE".toList, (wiringCode .three).toNat),
   ("FOUR".toList, (wiringCode .four).toNat), ("TWO_OR_FOUR".toList, (wiringCode .two).toNat)]

/-- The value names of `fault_detect` (R17, R67). -/
def faultDetectNames : List (List Char × Nat) :=
  [("FD_NONE".toList, (faultDetectCode .none).toNat),
   ("FD_AUTO".toList, (faultDetectCode .auto).toNat),
   ("FD_MANUAL1".toList, (faultDetectCode .manual1).toNat),
   ("FD_MANUAL2".toList, (faultDetectCode .manual2).toNat)]

/-- The value names of `fault_clear` (R17, R68). -/
def faultClearNames : List (List Char × Nat) :=
  [("FC_AUTO".toList, (faultClearCode .auto).toNat),
   ("FC_MANUAL".toList, (faultClearCode .manual).toNat)]

/-- The value names of `mainsfilter` (R17, R69). -/
def mainsFilterNames : List (List Char × Nat) :=
  [("HZ50".toList, (mainsFilterCode .hz50).toNat), ("HZ60".toList, (mainsFilterCode .hz60).toNat)]

/-- The operands of an operation by name, in the record's order (R75; the names of R29, R85 to R92, R98). -/
def fields : Opcode → List (List Char × FieldKind)
  | .cfgEnc =>
    [("vbias".toList, .unsigned 1 []), ("conv_mode".toList, .unsigned 1 convModeNames),
     ("oneshot".toList, .unsigned 1 []), ("nwires".toList, .unsigned 1 wiringNames),
     ("fault_detect".toList, .unsigned 2 faultDetectNames),
     ("fault_clear".toList, .unsigned 1 faultClearNames),
     ("mainsfilter".toList, .unsigned 1 mainsFilterNames)]
  | .cfgDec => [("byte".toList, .unsigned 8 [])]
  | .rtdEnc => [("ratio".toList, .unsigned 15 []), ("fault".toList, .unsigned 1 [])]
  | .rtdDec => [("bytes".toList, .byteList 2)]
  | .thrEnc => [("t".toList, .signed16)]
  | .thrDec => [("bytes".toList, .byteList 2)]
  | .fltEnc => [("raw".toList, .unsigned 8 [])]
  | .fltDec => [("bytes".toList, .byteList 1)]
  | .init =>
    [("threshold_min".toList, .signed16), ("threshold_max".toList, .signed16),
     ("nwires".toList, .unsigned 1 wiringNames),
     ("fault_detect".toList, .unsigned 2 faultDetectNames),
     ("fault_clear".toList, .unsigned 1 faultClearNames),
     ("filter".toList, .unsigned 1 mainsFilterNames),
     ("conv_mode".toList, .unsigned 1 convModeNames)]
  | .deinit => []
  | .readRaw => []
  | .readScaled => []

/-- The mnemonic of an operation (R75). -/
def mnemonic : Opcode → List Char
  | .cfgEnc => "CFG_ENC".toList
  | .cfgDec => "CFG_DEC".toList
  | .rtdEnc => "RTD_ENC".toList
  | .rtdDec => "RTD_DEC".toList
  | .thrEnc => "THR_ENC".toList
  | .thrDec => "THR_DEC".toList
  | .fltEnc => "FLT_ENC".toList
  | .fltDec => "FLT_DEC".toList
  | .init => "INIT".toList
  | .deinit => "DEINIT".toList
  | .readRaw => "READ_RAW".toList
  | .readScaled => "READ_SCALED".toList

/-! ### Assembling -/

/-- An unsigned value in its width (R77). -/
def unsignedField (w : Nat) (v : Int) : Except SyntaxError Nat :=
  if 0 ≤ v ∧ v < 2 ^ w then .ok v.toNat else .error .valueOutsideWidth

/-- The record fields a written value fills, refused outside its width (R77). -/
def fieldValues : FieldKind → Value → Except SyntaxError (List Nat)
  | .unsigned w _, .int v => (unsignedField w v).map ([·])
  | .unsigned _ names, .name n =>
    match names.lookup n with
    | some code => .ok [code]
    | none => .error .badValue
  | .signed16, .int v =>
    if -32768 ≤ v ∧ v ≤ 32767 then .ok [(BitVec.ofInt 16 v).toNat] else .error .valueOutsideWidth
  | .byteList n, .bytes vs =>
    if vs.length = n then vs.mapM (unsignedField 8) else .error .badValue
  | _, _ => .error .badValue

/-- One operand `name=value`. -/
def operand (cs : List Char) : Except SyntaxError (List Char × Value) :=
  match cs.dropWhile (· != '=') with
  | [] => .error .badOperand
  | _ :: rest =>
    match value? (trim rest) with
    | some v => .ok (trim (cs.takeWhile (· != '=')), v)
    | none => .error .badValue

/-- The record of an operation from its written operands, in the record's order whatever order they are
written in; a missing operand is a syntax error (R81). -/
def record (written : List (List Char × Value)) :
    List (List Char × FieldKind) → Except SyntaxError (List Nat)
  | [] => .ok []
  | (n, k) :: rest =>
    match written.lookup n with
    | none => .error .missingOperand
    | some v => do
      let here ← fieldValues k v
      let later ← record written rest
      .ok (here ++ later)

/-- No operand name is written twice. -/
def distinct : List (List Char) → Bool
  | [] => true
  | n :: ns => !ns.contains n && distinct ns

/-- The command of a line; none for a line that holds no command (R81). -/
def assemble (line : List Char) : Except SyntaxError (Option Command) :=
  let code := trim (line.takeWhile (· != ';'))
  if code = [] then .ok none
  else
    match Opcode.all.find? fun op => mnemonic op == code.takeWhile fun c => !isBlank c with
    | none => .error .unknownMnemonic
    | some op =>
      let rest := trim (code.dropWhile fun c => !isBlank c)
      let pieces := if rest = [] then [] else splitTop ',' false [] rest
      do
        let written ← pieces.mapM operand
        if !distinct (written.map (·.1)) then .error .repeatedOperand
        else if !(written.all fun w => ((fields op).lookup w.1).isSome) then .error .unknownName
        else do
          let values ← record written (fields op)
          .ok (some ⟨op.selector, values⟩)

end Sys2Proof.Machine.Assembler
end

