-- ==== Sys2Proof/Safety.lean ====
section
/-! DEFINITION. What the statements speak of: when a command is accepted, what an operation's end leaves, the
invariants of a run, and what the bits of a binary32 number stand for. -/

namespace Sys2Proof.Machine

/-- The instance accepts a command: it exists, it is not refused, it is live and no operation is in progress
(R97, R126). -/
def State.Ready (s : State) : Prop :=
  s.destroyed = false ∧ s.refused = false ∧ s.live = true ∧ s.seq = .idle

/-- `s` after an operation that changed nothing and returned `r`: the sequencer is idle and no working
register holds a value (R22, R24, R119). -/
def State.endsWith (s : State) (r : Result) : State :=
  { s with
    seq := .idle
    modeL := none
    cWork := none
    rtdRatio := none
    rtdFault := none
    scaled := false
    outcome := some (.returned r) }

/-- The transactions and delays the block may issue, and no other (R43, R106, R109). -/
def Event.legal : Event → Bool
  | .rd a bs =>
    (a == Config.addrConfig && bs.length == 1) || (a == Config.addrRtd && bs.length == 2)
  | .wr a bs =>
    (a == Config.addrConfig && bs.length == 1) || (a == Config.addrHighFault && bs.length == 2)
      || (a == Config.addrLowFault && bs.length == 2)
  | .dly ms => ms == Config.tBiasMs || ms == Config.tConvMs

/-- Every address of the register file is a register of the map (R28, R52). -/
def Memory.inMap (m : Memory) : Bool := m.all fun c => decide (c.1 < Config.registerCount)

/-- No working register holds a value and no read is in progress (R22). -/
def State.workGone (s : State) : Prop :=
  s.modeL = none ∧ s.cWork = none ∧ s.rtdRatio = none ∧ s.rtdFault = none ∧ s.scaled = false

/-- The working registers a position reads, now or at a later position before they are written, hold values
(R22). -/
def State.workReady (s : State) : Prop :=
  match s.seq with
  | .idle => s.workGone
  | .biasWr => s.cWork.isSome = true ∧ s.modeL.isSome = true
  | .settle => s.modeL.isSome = true
  | .trigWr => s.cWork.isSome = true
  | .unbiasRd => s.rtdRatio.isSome = true ∧ s.rtdFault.isSome = true
  | .unbiasWr => s.cWork.isSome = true ∧ s.rtdRatio.isSome = true ∧ s.rtdFault.isSome = true
  | .result => s.rtdRatio.isSome = true ∧ s.rtdFault.isSome = true
  | _ => True

/-- The invariant of a run: the register file is in its canonical form and within the map, every element of
the trace is one the block may issue, and the working registers are as their position needs them. -/
def State.Inv (s : State) : Prop :=
  Memory.wf s.mem = true ∧ Memory.inMap s.mem = true ∧ s.trace.all Event.legal = true ∧ s.workReady

/-- Whether, after one more element, the bias has settled: a CONFIG write with `vbias = 1` starts the wait,
a delay of at least `T_BIAS_MS` ends it (R144, R151). -/
def settledAfter (settled : Bool) : Event → Bool
  | .wr a [b] => if a == Config.addrConfig && b.getLsbD 7 then false else settled
  | .dly ms => settled || decide (Config.tBiasMs ≤ ms)
  | _ => settled

/-- Whether the bias has settled after a whole trace. -/
def settled : Bool → List Event → Bool
  | b, [] => b
  | b, e :: es => settled (settledAfter b e) es

/-- Every read of RTD in the trace comes when the bias has settled (R144, R146, R151). -/
def rtdReadsSettled : Bool → List Event → Bool
  | _, [] => true
  | b, .rd a bs :: es => (a != Config.addrRtd || b) && rtdReadsSettled (settledAfter b (.rd a bs)) es
  | b, e :: es => rtdReadsSettled (settledAfter b e) es

/-- The invariant that RTD is read only on a settled bias: of the trace so far, and of the positions on the
way to the RTD read. -/
def State.BiasInv (s : State) : Prop :=
  rtdReadsSettled false s.trace = true ∧
    (s.seq = .doneRd ∨ s.seq = .rtdRd → settled false s.trace = true)

/-- The number the bits of a finite IEEE 754 binary32 stand for (R118): sign, 8 bits of biased exponent,
23 bits of fraction. -/
def binary32Value (x : Binary32) : ℚ :=
  let sign : ℚ := if x.getLsbD 31 then -1 else 1
  let e := (x.extractLsb' 23 8).toNat
  let f : ℚ := (x.extractLsb' 0 23).toNat
  if e = 0 then sign * f / 2 ^ 149 else sign * (1 + f / 2 ^ 23) * 2 ^ e / 2 ^ 127

end Sys2Proof.Machine
end

