-- ==== Sys2Proof/WellFormed.lean ====
section
/-! DEFINITION. When a command is one of 30_encoding.md R75: a listed selector (R76), exactly the fields of
its row, each value in its width (R77). An instruction's operands are typed at their widths, so every
instruction is well-formed; `Sys2Proof.Laws.WellTyped` says so constructor by constructor. -/

namespace Sys2Proof

/-- The selector is listed in R75. -/
def Command.selectorListed (c : Command) : Bool := (Opcode.ofSelector c.selector).isSome

/-- The operand record has as many fields as its row of R75. -/
def Command.fieldsComplete (c : Command) : Bool :=
  match Opcode.ofSelector c.selector with
  | none => false
  | some op => op.widths.length == c.operands.length

/-- Every value lies in the width of its field (R77). -/
def Command.fieldsInWidth (c : Command) : Bool :=
  match Opcode.ofSelector c.selector with
  | none => false
  | some op => (op.widths.zip c.operands).all fun wv => decide (wv.2 < 2 ^ wv.1)

/-- A command of R75. -/
def Command.wellFormed (c : Command) : Bool :=
  c.selectorListed && c.fieldsComplete && c.fieldsInWidth

/-- An instruction's command is well-formed. -/
def Instr.wellFormed (i : Instr) : Bool := (encode i).wellFormed

end Sys2Proof
end

