-- ==== Sys2Proof/Certificates/Slice0/Obligations.lean ====
section
/-! DEFINITION. The statements made of the model, each a `Prop` to be proved elsewhere. -/

open Sys2Proof Sys2Proof.Machine

/-! ### The register codec -/

/-- CFG_ENC (40_codec.md; the bit positions are the spec's decision D1, log 15): the byte is the fields side
by side, vbias in bit 7 down to mainsfilter in bit 0, and nothing else changes. -/
def Obligations.CfgEncPacksFieldsMsbFirst : Prop :=
  ∀ (c : CfgRecord) (s : State), s.Ready →
    exec (.cfgEnc c) s = .next (s.endsWith (.byte
      (c.vbias ++ c.convMode ++ c.oneshot ++ c.nwires ++ c.faultDetect ++ c.faultClear
        ++ c.mainsfilter)))

/-- CFG_DEC (40_codec.md; bit positions D1, log 15): every byte unpacks, bit by bit, and nothing else
changes. -/
def Obligations.CfgDecUnpacksEveryByte : Prop :=
  ∀ (b : Byte) (s : State), s.Ready →
    exec (.cfgDec b) s = .next (s.endsWith (.config
      { vbias := BitVec.ofBool (b.getLsbD 7)
        convMode := BitVec.ofBool (b.getLsbD 6)
        oneshot := BitVec.ofBool (b.getLsbD 5)
        nwires := BitVec.ofBool (b.getLsbD 4)
        faultDetect := BitVec.ofBool (b.getLsbD 3) ++ BitVec.ofBool (b.getLsbD 2)
        faultClear := BitVec.ofBool (b.getLsbD 1)
        mainsfilter := BitVec.ofBool (b.getLsbD 0) }))

/-- RTD_ENC (40_codec.md, 30_encoding.md section 1): RTD_H holds the fault flag and the ratio's bits 14:8,
RTD_L the ratio's bits 7:0. -/
def Obligations.RtdEncPutsFaultAboveRatio : Prop :=
  ∀ (ratio : Ratio) (fault : Bit) (s : State), s.Ready →
    exec (.rtdEnc ratio fault) s = .next (s.endsWith (.byteSeq
      [fault ++ ratio.extractLsb' 8 7, ratio.extractLsb' 0 8]))

/-- R62: with `w = (b0 << 8) | b1`, the fault flag is `w[15]`, which is bit 7 of RTD_H, and the ratio is
`w[14:0]`, which is bits 6:0 of RTD_H followed by all of RTD_L; and bit 15 of the result READ_RAW makes of a
ratio is 0, its low 15 bits the ratio. -/
def Obligations.RtdDecReadsFaultAndRatio : Prop :=
  (∀ (b0 b1 : Byte) (s : State), s.Ready → ∃ (ratio : Ratio) (fault : Bit),
    exec (.rtdDec b0 b1) s = .next (s.endsWith (.rtd ratio fault)) ∧
    fault.toNat = (b0.toNat * 256 + b1.toNat) / 2 ^ 15 ∧
    ratio.toNat = (b0.toNat * 256 + b1.toNat) % 2 ^ 15 ∧
    fault = b0.extractLsb' 7 1 ∧
    ratio = b0.extractLsb' 0 7 ++ b1) ∧
  ∀ ratio : Ratio, ratioResult ratio = (0#1 ++ ratio : BitVec 16)

/-- R64: a threshold is an s16 in two's complement, big-endian, all 16 bits significant and unshifted: THR_ENC
gives bits 15:8 then bits 7:0, THR_DEC reads them back as the signed number, and 0 and 1000 encode as the
source's example says. -/
def Obligations.ThresholdsAreBigEndianTwosComplement : Prop :=
  (∀ (t : S16) (s : State), s.Ready → ∃ b0 b1 : Byte,
    exec (.thrEnc t) s = .next (s.endsWith (.byteSeq [b0, b1])) ∧
    ((b0.toNat * 256 + b1.toNat : Nat) : Int) = t.toInt % 2 ^ 16) ∧
  (∀ (b0 b1 : Byte) (s : State), s.Ready → ∃ t : S16,
    exec (.thrDec b0 b1) s = .next (s.endsWith (.threshold t)) ∧
    t.toInt = if b0.getLsbD 7 then (b0.toNat * 256 + b1.toNat : Int) - 2 ^ 16
      else (b0.toNat * 256 + b1.toNat : Int)) ∧
  (∀ s : State, s.Ready →
    exec (.thrEnc 1000) s = .next (s.endsWith (.byteSeq [0x03, 0xE8])) ∧
    exec (.thrEnc 0) s = .next (s.endsWith (.byteSeq [0x00, 0x00])))

/-- FLT_ENC and FLT_DEC (40_codec.md; D18): the FAULT_STATUS byte is carried unchanged. -/
def Obligations.FaultStatusIsCarriedUnchanged : Prop :=
  ∀ (b : Byte) (s : State), s.Ready →
    exec (.fltEnc b) s = .next (s.endsWith (.byteSeq [b])) ∧
    exec (.fltDec b) s = .next (s.endsWith (.byte b))

/-- 40_codec.md's round-trip laws, in both directions, for CONFIG records, RTD pairs and thresholds, said of
the results the commands return. -/
def Obligations.CodecRoundTrips : Prop :=
  ∀ s : State, s.Ready →
    (∀ c : CfgRecord, ∃ b : Byte,
      exec (.cfgEnc c) s = .next (s.endsWith (.byte b)) ∧
      exec (.cfgDec b) s = .next (s.endsWith (.config c))) ∧
    (∀ b : Byte, ∃ c : CfgRecord,
      exec (.cfgDec b) s = .next (s.endsWith (.config c)) ∧
      exec (.cfgEnc c) s = .next (s.endsWith (.byte b))) ∧
    (∀ (r : Ratio) (f : Bit), ∃ b0 b1 : Byte,
      exec (.rtdEnc r f) s = .next (s.endsWith (.byteSeq [b0, b1])) ∧
      exec (.rtdDec b0 b1) s = .next (s.endsWith (.rtd r f))) ∧
    (∀ b0 b1 : Byte, ∃ (r : Ratio) (f : Bit),
      exec (.rtdDec b0 b1) s = .next (s.endsWith (.rtd r f)) ∧
      exec (.rtdEnc r f) s = .next (s.endsWith (.byteSeq [b0, b1]))) ∧
    (∀ t : S16, ∃ b0 b1 : Byte,
      exec (.thrEnc t) s = .next (s.endsWith (.byteSeq [b0, b1])) ∧
      exec (.thrDec b0 b1) s = .next (s.endsWith (.threshold t))) ∧
    (∀ b0 b1 : Byte, ∃ t : S16,
      exec (.thrDec b0 b1) s = .next (s.endsWith (.threshold t)) ∧
      exec (.thrEnc t) s = .next (s.endsWith (.byteSeq [b0, b1])))

/-- The CONFIG transforms of READ_RAW on a byte (30_encoding.md section 1; bit positions D1, log 15), and the
two tests. -/
def Obligations.ConfigTransformsOnBytes : Prop :=
  ∀ b : Byte,
    biasEnableByte b = (b ||| 0x80) &&& 0xD1 ∧
    triggerByte b = b ||| 0x20 ∧
    biasDisableByte b = b &&& 0x7F ∧
    isOneshotMode (cfgDec b).convMode = !b.getLsbD 6 ∧
    notFinished b = b.getLsbD 5

/-! ### INIT and DEINIT -/

/-- INIT (41_sequencer.md section 2; the CONFIG byte rests on D1, log 15): on a ready instance it completes,
with the three writes in their order appended to the trace and stored, `initialized` set, the result OK, and
every other field as an ended operation leaves it. -/
def Obligations.InitWritesThreeRegistersInOrder : Prop :=
  ∀ (tmin tmax : S16) (nw : Bit) (fd : BitVec 2) (fc fl cm : Bit) (s : State), s.Ready →
    ∃ t : State, exec (.init tmin tmax nw fd fc fl cm) s = .next t ∧
      t = { s.endsWith .ok with
        initialized := true
        mem := t.mem
        trace := s.trace ++
          [.wr Config.addrConfig [(0#1 ++ cm ++ 0#1 ++ nw ++ fd ++ fc ++ fl : BitVec 8)],
           .wr Config.addrHighFault [tmax.extractLsb' 8 8, tmax.extractLsb' 0 8],
           .wr Config.addrLowFault [tmin.extractLsb' 8 8, tmin.extractLsb' 0 8]] } ∧
      t.byteAt Config.addrConfig.toNat =
        some (0#1 ++ cm ++ 0#1 ++ nw ++ fd ++ fc ++ fl : BitVec 8) ∧
      t.byteAt Config.addrHighFault.toNat = some (tmax.extractLsb' 8 8) ∧
      t.byteAt (Config.addrHighFault.toNat + 1) = some (tmax.extractLsb' 0 8) ∧
      t.byteAt Config.addrLowFault.toNat = some (tmin.extractLsb' 8 8) ∧
      t.byteAt (Config.addrLowFault.toNat + 1) = some (tmin.extractLsb' 0 8)

/-- INIT's memory frame: every register but CONFIG and the two threshold pairs reads as before. -/
def Obligations.InitStoresNowhereElse : Prop :=
  ∀ (tmin tmax : S16) (nw : Bit) (fd : BitVec 2) (fc fl cm : Bit) (s t : State),
    exec (.init tmin tmax nw fd fc fl cm) s = .next t →
    ∀ a : Nat, a ≠ Config.addrConfig.toNat →
      a ≠ Config.addrHighFault.toNat → a ≠ Config.addrHighFault.toNat + 1 →
      a ≠ Config.addrLowFault.toNat → a ≠ Config.addrLowFault.toNat + 1 →
      t.byteAt a = s.byteAt a

/-- R99 and R101: the CONFIG byte INIT writes decodes to vbias 0, oneshot 0 and the operands in the other
fields, HIGH_FAULT receives the encoding of `threshold_max` and LOW_FAULT of `threshold_min` (the source's
example being one case), and INIT's result is always OK. -/
def Obligations.InitConfigAndThresholdsAndOk : Prop :=
  (∀ (tmin tmax : S16) (nw : Bit) (fd : BitVec 2) (fc fl cm : Bit) (s : State), s.Ready →
    ∃ (t : State) (b h0 h1 l0 l1 : Byte),
      exec (.init tmin tmax nw fd fc fl cm) s = .next t ∧
      t.trace = s.trace ++
        [.wr Config.addrConfig [b], .wr Config.addrHighFault [h0, h1],
         .wr Config.addrLowFault [l0, l1]] ∧
      exec (.cfgDec b) s = .next (s.endsWith (.config
        { vbias := 0, convMode := cm, oneshot := 0, nwires := nw, faultDetect := fd,
          faultClear := fc, mainsfilter := fl })) ∧
      exec (.thrEnc tmax) s = .next (s.endsWith (.byteSeq [h0, h1])) ∧
      exec (.thrEnc tmin) s = .next (s.endsWith (.byteSeq [l0, l1])) ∧
      t.outcome = some (.returned .ok)) ∧
  (∀ (nw : Bit) (fd : BitVec 2) (fc fl cm : Bit) (s t : State), s.Ready →
    exec (.init 0 1000 nw fd fc fl cm) s = .next t →
    t.byteAt 0x03 = some 0x03 ∧ t.byteAt 0x04 = some 0xE8 ∧
    t.byteAt 0x05 = some 0x00 ∧ t.byteAt 0x06 = some 0x00)

/-- DEINIT (41_sequencer.md section 3): `initialized` is cleared, the result is OK, no transaction is issued,
every device register stays; doing it again changes nothing; and a READ_RAW that follows returns NONE with
no transaction. -/
def Obligations.DeinitClearsTheFlagAndNothingElse : Prop :=
  ∀ s : State, s.Ready → ∃ t : State,
    exec .deinit s = .next t ∧
    t = { s.endsWith .ok with initialized := false } ∧
    exec .deinit t = .next t ∧
    exec .readRaw t = .next (t.endsWith .noValue)

/-- R37: DEINIT changes only `initialized` among the block's state and leaves every device register as it
was, whatever it held; and destroying an instance leaves the device as it was, with no transaction. -/
def Obligations.DeinitAndDestructionLeaveTheDevice : Prop :=
  (∀ s t : State, s.Ready → exec .deinit s = .next t →
    t = { s.endsWith .ok with initialized := false } ∧ t.mem = s.mem ∧ t.device = s.device ∧
      t.trace = s.trace) ∧
  (∀ s t : State, hostMove .destroy s = .next t →
    t.mem = s.mem ∧ t.device = s.device ∧ t.trace = s.trace)

/-! ### READ_RAW -/

/-- R104: an uninitialized instance returns NONE at once, with an empty trace and no hardware access, whatever
the transport would answer. -/
def Obligations.ReadRawUninitializedReturnsNone : Prop :=
  ∀ s : State, s.Ready → s.initialized = false →
    exec .readRaw s = .next (s.endsWith .noValue)

/-- The five paths of 41_sequencer.md section 5, for every device and every answer it gives (the CONFIG bytes
rest on D1, the read counts on D6 and D7, step 4 in AUTO mode on C4; logs 15 and 16): READ_RAW completes, and
its trace and result are one of P0 to P4. -/
def Obligations.ReadRawTakesOneOfFivePaths : Prop :=
  ∀ s : State, s.Ready → ∃ t : State, exec .readRaw s = .next t ∧
    ((s.initialized = false ∧ t.trace = s.trace ∧ t.outcome = some (.returned .noValue)) ∨
    (s.initialized = true ∧
      ((∃ c0 c1 c2 : Byte, c0.getLsbD 6 = false ∧ c2.getLsbD 5 = true ∧
        t.outcome = some (.returned .noValue) ∧
        t.trace = s.trace ++
          [.rd Config.addrConfig [c0], .wr Config.addrConfig [(c0 ||| 0x80) &&& 0xD1],
           .dly Config.tBiasMs,
           .rd Config.addrConfig [c1], .wr Config.addrConfig [c1 ||| 0x20], .dly Config.tConvMs,
           .rd Config.addrConfig [c2]]) ∨
      (∃ c0 c1 c2 c3 r0 r1 : Byte, c0.getLsbD 6 = false ∧ c2.getLsbD 5 = false ∧
        t.outcome = some (.returned
          (if r0.getLsbD 7 then .noValue else .raw (r0 ++ r1 : BitVec 16))) ∧
        t.trace = s.trace ++
          [.rd Config.addrConfig [c0], .wr Config.addrConfig [(c0 ||| 0x80) &&& 0xD1],
           .dly Config.tBiasMs,
           .rd Config.addrConfig [c1], .wr Config.addrConfig [c1 ||| 0x20], .dly Config.tConvMs,
           .rd Config.addrConfig [c2], .rd Config.addrRtd [r0, r1],
           .rd Config.addrConfig [c3], .wr Config.addrConfig [c3 &&& 0x7F]]) ∨
      (∃ c0 c2 : Byte, c0.getLsbD 6 = true ∧ c2.getLsbD 5 = true ∧
        t.outcome = some (.returned .noValue) ∧
        t.trace = s.trace ++
          [.rd Config.addrConfig [c0], .wr Config.addrConfig [(c0 ||| 0x80) &&& 0xD1],
           .dly Config.tBiasMs, .rd Config.addrConfig [c2]]) ∨
      (∃ c0 c2 c3 r0 r1 : Byte, c0.getLsbD 6 = true ∧ c2.getLsbD 5 = false ∧
        t.outcome = some (.returned
          (if r0.getLsbD 7 then .noValue else .raw (r0 ++ r1 : BitVec 16))) ∧
        t.trace = s.trace ++
          [.rd Config.addrConfig [c0], .wr Config.addrConfig [(c0 ||| 0x80) &&& 0xD1],
           .dly Config.tBiasMs, .rd Config.addrConfig [c2], .rd Config.addrRtd [r0, r1],
           .rd Config.addrConfig [c3], .wr Config.addrConfig [c3 &&& 0x7F]]))))

/-- Path P2 with the answers the device is given (41_sequencer.md section 5; D1, D6, D7): ONESHOT, finished.
Every field of the next state is stated. -/
def Obligations.ReadRawOneshotFinished : Prop :=
  ∀ (s : State) (c0 c1 c2 c3 r0 r1 : Byte) (rest : List Byte),
    s.Ready → s.initialized = true → s.device = .oracle (c0 :: c1 :: c2 :: r0 :: r1 :: c3 :: rest) →
    c0.getLsbD 6 = false → c2.getLsbD 5 = false →
    exec .readRaw s = .next
      { s.endsWith (if r0.getLsbD 7 then .noValue else .raw (r0 ++ r1 : BitVec 16)) with
        device := .oracle rest
        draws := s.draws + 6
        mem := Memory.write s.mem Config.addrConfig.toNat (c3 &&& 0x7F)
        trace := s.trace ++
          [.rd Config.addrConfig [c0], .wr Config.addrConfig [(c0 ||| 0x80) &&& 0xD1],
           .dly Config.tBiasMs,
           .rd Config.addrConfig [c1], .wr Config.addrConfig [c1 ||| 0x20], .dly Config.tConvMs,
           .rd Config.addrConfig [c2], .rd Config.addrRtd [r0, r1],
           .rd Config.addrConfig [c3], .wr Config.addrConfig [c3 &&& 0x7F]] }

/-- Path P1 with the answers the device is given: ONESHOT, not finished. The last CONFIG byte written is the
trigger byte, so its vbias is the one the step 3 read returned (log 20). -/
def Obligations.ReadRawOneshotNotFinished : Prop :=
  ∀ (s : State) (c0 c1 c2 : Byte) (rest : List Byte),
    s.Ready → s.initialized = true → s.device = .oracle (c0 :: c1 :: c2 :: rest) →
    c0.getLsbD 6 = false → c2.getLsbD 5 = true →
    exec .readRaw s = .next
      { s.endsWith .noValue with
        device := .oracle rest
        draws := s.draws + 3
        mem := Memory.write s.mem Config.addrConfig.toNat (c1 ||| 0x20)
        trace := s.trace ++
          [.rd Config.addrConfig [c0], .wr Config.addrConfig [(c0 ||| 0x80) &&& 0xD1],
           .dly Config.tBiasMs,
           .rd Config.addrConfig [c1], .wr Config.addrConfig [c1 ||| 0x20], .dly Config.tConvMs,
           .rd Config.addrConfig [c2]] }

/-- Paths P3 and P4 with the answers the device is given: AUTO mode (D1, D2, D6, C4). -/
def Obligations.ReadRawAutoPaths : Prop :=
  ∀ (s : State) (c0 c2 : Byte) (rest : List Byte),
    s.Ready → s.initialized = true → s.device = .oracle (c0 :: c2 :: rest) → c0.getLsbD 6 = true →
    (c2.getLsbD 5 = true →
      exec .readRaw s = .next
        { s.endsWith .noValue with
          device := .oracle rest
          draws := s.draws + 2
          mem := Memory.write s.mem Config.addrConfig.toNat ((c0 ||| 0x80) &&& 0xD1)
          trace := s.trace ++
            [.rd Config.addrConfig [c0], .wr Config.addrConfig [(c0 ||| 0x80) &&& 0xD1],
             .dly Config.tBiasMs, .rd Config.addrConfig [c2]] }) ∧
    (∀ (c3 r0 r1 : Byte) (rest' : List Byte), c2.getLsbD 5 = false →
      rest = r0 :: r1 :: c3 :: rest' →
      exec .readRaw s = .next
        { s.endsWith (if r0.getLsbD 7 then .noValue else .raw (r0 ++ r1 : BitVec 16)) with
          device := .oracle rest'
          draws := s.draws + 5
          mem := Memory.write s.mem Config.addrConfig.toNat (c3 &&& 0x7F)
          trace := s.trace ++
            [.rd Config.addrConfig [c0], .wr Config.addrConfig [(c0 ||| 0x80) &&& 0xD1],
             .dly Config.tBiasMs, .rd Config.addrConfig [c2], .rd Config.addrRtd [r0, r1],
             .rd Config.addrConfig [c3], .wr Config.addrConfig [c3 &&& 0x7F]] })

/-- The frame of READ_RAW and READ_SCALED (41_sequencer.md section 7): on every path the block's state is as
before, the working registers are gone, and every device register but CONFIG reads as before. -/
def Obligations.ReadsKeepBlockStateAndOtherRegisters : Prop :=
  ∀ (i : Instr) (s t : State), i = .readRaw ∨ i = .readScaled → s.Ready → exec i s = .next t →
    t.initialized = s.initialized ∧ t.live = s.live ∧ t.refused = s.refused ∧ t.seq = .idle ∧
    t.destroyed = s.destroyed ∧ t.inbox = s.inbox ∧ t.workGone ∧
    ∀ a : Nat, a ≠ Config.addrConfig.toNat → t.byteAt a = s.byteAt a

/-- R106: a READ_RAW of an initialized instance reads CONFIG once, writes the bias-enable byte and at once
delays by `T_BIAS_MS`, which is 10, in both modes; the byte written has vbias 1. -/
def Obligations.BiasWriteIsFollowedAtOnceBySettling : Prop :=
  Config.tBiasMs = 10 ∧
  ∀ s : State, s.Ready → s.initialized = true →
    ∃ (t : State) (c0 w : Byte) (rest : List Event),
      exec .readRaw s = .next t ∧
      t.trace = s.trace ++
        ([.rd Config.addrConfig [c0], .wr Config.addrConfig [w], .dly Config.tBiasMs] ++ rest) ∧
      (cfgDec w).vbias = 1

/-- R110: in AUTO mode, which the first CONFIG read of the sequence shows, step 3 issues nothing: after the
settling delay READ_RAW issues no CONFIG write with oneshot = 1 that step 6's read did not show, and no
`Delay(T_CONV_MS)`; what follows the delay at once is the step 4 read. -/
def Obligations.AutoModeOmitsTriggerAndConversionDelay : Prop :=
  ∀ (s t : State) (c0 : Byte), s.Ready → s.initialized = true →
    (readByte s Config.addrConfig).1 = c0 → (cfgDec c0).convMode = convModeCode .auto →
    exec .readRaw s = .next t →
    ∃ (w c2 : Byte) (later : List Event),
      t.trace = s.trace ++
        ([.rd Config.addrConfig [c0], .wr Config.addrConfig [w], .dly Config.tBiasMs,
          .rd Config.addrConfig [c2]] ++ later) ∧
      (cfgDec w).oneshot = 0 ∧
      (later = [] ∨ ∃ (r0 r1 c3 w' : Byte),
        later = [.rd Config.addrRtd [r0, r1], .rd Config.addrConfig [c3],
          .wr Config.addrConfig [w']] ∧
        (cfgDec w').oneshot = (cfgDec c3).oneshot)

/-- R72 and R114: where the fault flag of the RTD pair is 1, step 7 gives NONE even when the ratio is not
zero; otherwise it gives the ratio zero-extended, whose bit 15 is 0 and whose value lies in 0 to 32767. Said
of every READ_RAW that reads RTD, its pair being the one in the trace. -/
def Obligations.FaultFlagDecidesTheResult : Prop :=
  ∀ s : State, s.Ready → s.initialized = true → ∃ t : State, exec .readRaw s = .next t ∧
    ∀ (pre post : List Event) (r0 r1 : Byte),
      t.trace = s.trace ++ (pre ++ .rd Config.addrRtd [r0, r1] :: post) →
      ((rtdDec r0 r1).2 = 1 → t.outcome = some (.returned .noValue)) ∧
      ((rtdDec r0 r1).2 = 0 → ∃ v : S16, t.outcome = some (.returned (.raw v)) ∧
        v = (rtdDec r0 r1).1.setWidth 16 ∧ v.getLsbD 15 = false ∧
        0 ≤ v.toInt ∧ v.toInt ≤ 32767)

/-- R113 read on the register file, for every device: after a READ_RAW that read RTD, the CONFIG register
was last written with vbias = 0; after one that returned because oneshot was still set in AUTO mode, with
vbias = 1; and after one in ONESHOT mode, with the vbias the step 3 read returned (log 20). The mode and the
answers are those of the trace. -/
def Obligations.BiasAfterEachPath : Prop :=
  ∀ s t : State, s.Ready → s.initialized = true → exec .readRaw s = .next t →
    (∀ (pre post : List Event) (r0 r1 : Byte),
      t.trace = s.trace ++ (pre ++ .rd Config.addrRtd [r0, r1] :: post) →
      ∃ b : Byte, t.byteAt Config.addrConfig.toNat = some b ∧ b.getLsbD 7 = false) ∧
    (∀ (c0 w c2 : Byte),
      t.trace = s.trace ++ [.rd Config.addrConfig [c0], .wr Config.addrConfig [w],
        .dly Config.tBiasMs, .rd Config.addrConfig [c2]] →
      ∃ b : Byte, t.byteAt Config.addrConfig.toNat = some b ∧ b.getLsbD 7 = true) ∧
    (∀ (c0 w c1 w' c2 : Byte),
      t.trace = s.trace ++ [.rd Config.addrConfig [c0], .wr Config.addrConfig [w],
        .dly Config.tBiasMs, .rd Config.addrConfig [c1], .wr Config.addrConfig [w'],
        .dly Config.tConvMs, .rd Config.addrConfig [c2]] →
      ∃ b : Byte, t.byteAt Config.addrConfig.toNat = some b ∧ b.getLsbD 7 = c1.getLsbD 7)

/-- 70_reset_and_hazards.md sections 2 and 3: in the trace a READ_RAW or READ_SCALED adds, RTD is read only
after a delay of at least `T_BIAS_MS` since the last CONFIG write with vbias = 1. -/
def Obligations.EachReadSettlesItsBias : Prop :=
  ∀ (i : Instr) (s t : State), i = .readRaw ∨ i = .readScaled → s.Ready → exec i s = .next t →
    ∃ added : List Event, t.trace = s.trace ++ added ∧ rtdReadsSettled false added = true

/-- The causes of NONE and their order (60_exceptions.md sections 1 and 3): the end of the trace tells the
cause; an uninitialized instance issued nothing; an unfinished conversion was shown by the step 4 read, and
RTD was not read; an RTD fault was shown by the RTD read, and bias was disabled after it (byte form D1). -/
def Obligations.TraceTellsTheCauseOfNone : Prop :=
  ∀ s t : State, s.Ready → exec .readRaw s = .next t → t.outcome = some (.returned .noValue) →
    ∃ added : List Event, t.trace = s.trace ++ added ∧
      match noneCause added with
      | .notInit => s.initialized = false ∧ added = []
      | .notDone => s.initialized = true ∧
        (∀ r0 r1 : Byte, .rd Config.addrRtd [r0, r1] ∉ added) ∧
        ∃ (pre : List Event) (c : Byte),
          added = pre ++ [.rd Config.addrConfig [c]] ∧ (cfgDec c).oneshot = 1
      | .rtdFault => s.initialized = true ∧
        ∃ (pre : List Event) (r0 r1 c : Byte),
          added = pre ++ [.rd Config.addrRtd [r0, r1], .rd Config.addrConfig [c],
            .wr Config.addrConfig [c &&& 0x7F]] ∧
          (rtdDec r0 r1).2 = 1

/-! ### READ_SCALED -/

/-- READ_SCALED (41_sequencer.md section 6; D27): from every ready state it completes, with the next state of
READ_RAW in every field but the result, which is NONE where READ_RAW's is, and else its value converted. -/
def Obligations.ReadScaledIsReadRawConverted : Prop :=
  ∀ s : State, s.Ready → ∃ t u : State,
    exec .readRaw s = .next t ∧ exec .readScaled s = .next u ∧
    ((t.outcome = some (.returned .noValue) ∧ u = t) ∨
      ∃ v : S16, t.outcome = some (.returned (.raw v)) ∧
        u = { t with outcome := some (.returned (.scaled (toBinary32 v))) })

/-- The binary32 of a signed 16-bit number stands for exactly that number (41_sequencer.md section 6; the
format is the spec's decision D17, log 19): of every s16, so of every value READ_RAW can return. -/
def Obligations.Binary32OfRawIsExact : Prop :=
  ∀ v : S16, binary32Value (toBinary32 v) = (v.toInt : ℚ)

/-! ### The sequencer -/

/-- Running the sequencer position by position gives the whole operation: after a READ_RAW or READ_SCALED is
issued on a ready instance with no other move of the host pending, twelve more steps give the state that the
operation gives as one step (41_sequencer.md sections 4 and 5; that the model has both forms is its choice, log
6). -/
def Obligations.SequencerRunIsTheWholeRead : Prop :=
  ∀ (i : Instr) (s : State), i = .readRaw ∨ i = .readScaled → s.Ready → s.inbox = [] →
    Host.Core.run Sys2Proof.core 13 { s with inbox := [.issue (encode i)] } = exec i s

/-- The transitions of 41_sequencer.md section 5 out of the positions that read, for every device: the
position, the element issued, the working registers written, and those that hold what they held (10_state.md section 1). -/
def Obligations.SequencerReadPositions : Prop :=
  ∀ s : State, s.refused = false → s.inbox = [] →
    (s.seq = .biasRd → ∃ (t : State) (b : Byte), step s = .next t ∧ t.seq = .biasWr ∧
      t.trace = s.trace ++ [.rd Config.addrConfig [b]] ∧ t.cWork = some b ∧
      t.modeL = some (BitVec.ofBool (b.getLsbD 6))) ∧
    (s.seq = .trigRd → ∃ (t : State) (b : Byte), step s = .next t ∧ t.seq = .trigWr ∧
      t.trace = s.trace ++ [.rd Config.addrConfig [b]] ∧ t.cWork = some b ∧ t.modeL = s.modeL) ∧
    (s.seq = .doneRd → ∃ (t : State) (b : Byte), step s = .next t ∧
      t.trace = s.trace ++ [.rd Config.addrConfig [b]] ∧
      if b.getLsbD 5 then t.seq = .idle ∧ t.outcome = some (.returned .noValue) ∧ t.workGone
      else t.seq = .rtdRd ∧ t.cWork = some b ∧ t.modeL = s.modeL ∧ t.outcome = s.outcome) ∧
    (s.seq = .rtdRd → ∃ (t : State) (r0 r1 : Byte), step s = .next t ∧ t.seq = .unbiasRd ∧
      t.trace = s.trace ++ [.rd Config.addrRtd [r0, r1]] ∧
      t.rtdRatio = some (r0.extractLsb' 0 7 ++ r1) ∧
      t.rtdFault = some (BitVec.ofBool (r0.getLsbD 7))) ∧
    (s.seq = .unbiasRd → ∃ (t : State) (b : Byte), step s = .next t ∧ t.seq = .unbiasWr ∧
      t.trace = s.trace ++ [.rd Config.addrConfig [b]] ∧ t.cWork = some b ∧
      t.rtdRatio = s.rtdRatio ∧ t.rtdFault = s.rtdFault)

/-- The transitions of 41_sequencer.md section 5 out of the positions that write, delay or decide: every field
of the next state (bit positions D1, mode codes D2, step 4 in AUTO mode C4). A delay may change CONFIG under
RefDev, so there the register file is named by the delay itself. The first clause is of the idle position, out
of which only a command leads: that an idle block with no move of the host pending steps to itself is the
model's choice (log 10). The last clause is that a set fault flag returns NONE at S_RESULT whether or not there
is a ratio, because step 7 then reads none. -/
def Obligations.SequencerOtherPositions : Prop :=
  ∀ s : State, s.refused = false → s.inbox = [] →
    (s.seq = .idle → step s = .next s) ∧
    (s.seq = .check → s.initialized = false → step s = .next (s.endsWith .noValue)) ∧
    (s.seq = .check → s.initialized = true → step s = .next { s with seq := .biasRd }) ∧
    (∀ b : Byte, s.seq = .biasWr → s.cWork = some b → step s = .next
      { s with
        seq := .settle
        mem := Memory.write s.mem Config.addrConfig.toNat ((b ||| 0x80) &&& 0xD1)
        trace := s.trace ++ [.wr Config.addrConfig [(b ||| 0x80) &&& 0xD1]] }) ∧
    (∀ m : Bit, s.seq = .settle → s.modeL = some m → step s = .next
      { s with
        seq := if m = 1 then .doneRd else .trigRd
        mem := (delay s Config.tBiasMs).mem
        trace := s.trace ++ [.dly Config.tBiasMs] }) ∧
    (∀ b : Byte, s.seq = .trigWr → s.cWork = some b → step s = .next
      { s with
        seq := .conv
        mem := Memory.write s.mem Config.addrConfig.toNat (b ||| 0x20)
        trace := s.trace ++ [.wr Config.addrConfig [b ||| 0x20]] }) ∧
    (s.seq = .conv → step s = .next
      { s with
        seq := .doneRd
        mem := (delay s Config.tConvMs).mem
        trace := s.trace ++ [.dly Config.tConvMs] }) ∧
    (∀ b : Byte, s.seq = .unbiasWr → s.cWork = some b → step s = .next
      { s with
        seq := .result
        mem := Memory.write s.mem Config.addrConfig.toNat (b &&& 0x7F)
        trace := s.trace ++ [.wr Config.addrConfig [b &&& 0x7F]] }) ∧
    (∀ (ratio : Ratio) (fault : Bit), s.seq = .result → s.rtdRatio = some ratio →
      s.rtdFault = some fault →
      step s = .next (s.endsWith
        (if fault = 1 then .noValue
          else if s.scaled then .scaled (toBinary32 (0#1 ++ ratio : BitVec 16))
          else .raw (0#1 ++ ratio : BitVec 16)))) ∧
    (s.seq = .result → s.rtdFault = some 1 → step s = .next (s.endsWith .noValue))

/-! ### Refusals -/

/-- 60_exceptions.md section 2: every operation, codec or controller, issued to a moved-from instance or while
an operation is in progress is refused: the sticky mark is set, the reason recorded, and nothing else
changes (that a codec operation is refused too while a read is in progress is the model's choice, log 7). -/
def Obligations.CommandsToUnreadyInstancesAreRefused : Prop :=
  ∀ (i : Instr) (s : State), s.destroyed = false → s.refused = false →
    (s.live = false → exec i s = .next
      { s with refused := true, outcome := some (.refused .movedFrom) }) ∧
    (s.live = true → s.seq ≠ .idle → exec i s = .next
      { s with refused := true, outcome := some (.refused .concurrentCall) })

/-- A command that is not well-formed (30_encoding.md section 3; D16) is refused, called or issued alike: a
reserved selector as such, and any other ill-formed record as an operand outside its width (a wrong count of
operands too, the model's choice, log 1); it issues no transaction and changes no state but the mark and the
recorded reason. On a moved-from or busy instance other reasons hold as well: that the ill-formed command is
the one recorded is the model's choice (log 7). -/
def Obligations.IllFormedCommandsAreRefused : Prop :=
  ∀ (c : Command) (s : State) (rest : List HostMove),
    s.destroyed = false → s.refused = false →
    s.inbox = .call c :: rest ∨ s.inbox = .issue c :: rest → c.wellFormed = false →
    step s = .next
      { s with
        inbox := rest
        refused := true
        outcome := some (.refused
          (if c.selectorListed then .operandWidth else .reservedSelector)) }

/-- The mark is sticky and the refused instance has no further meaning (60_exceptions.md section 2; D15, log
5): no step and no operation gives it a next state. -/
def Obligations.RefusedInstancesStayRefused : Prop :=
  ∀ s : State, s.refused = true →
    step s = .refused .refusedInstance ∧
    ∀ i : Instr, s.destroyed = false → exec i s = .refused .refusedInstance

/-- The host's moves other than commands (10_state.md section 1, 70_reset_and_hazards.md section 1; what the
spec leaves open is the model's choice, log 12): moving away clears `live` and no more, so that moving an
instance moved before changes nothing (log 12); destroying an idle instance, moved before or not, issues
nothing, destroying one in flight is refused with the mark; creating an instance on the transport a destroyed
one left resets the block and leaves the device. -/
def Obligations.MovingDestroyingAndCreating : Prop :=
  ∀ (s : State) (rest : List HostMove), s.refused = false →
    (s.inbox = .moveAway :: rest → s.destroyed = false → s.seq = .idle →
      step s = .next { s with inbox := rest, live := false }) ∧
    (s.inbox = .destroy :: rest → s.destroyed = false → s.seq = .idle →
      step s = .next { s with inbox := rest, destroyed := true }) ∧
    (s.inbox = .destroy :: rest → s.destroyed = false → s.seq ≠ .idle →
      step s = .next
        { s with
          inbox := rest, refused := true, outcome := some (.refused .destroyedInFlight) }) ∧
    (s.inbox = .create :: rest → s.destroyed = true → s.live = true →
      ∃ t : State, step s = .next t ∧
        t.initialized = false ∧ t.live = true ∧ t.refused = false ∧ t.seq = .idle ∧
        t.workGone ∧ t.trace = [] ∧ t.destroyed = false ∧ t.outcome = none ∧
        t.mem = s.mem ∧ t.device = s.device ∧ t.draws = s.draws ∧ t.inbox = rest)

/-! ### The whole machine -/

/-- R123: no operation raises an exception: a ready instance answers every operation with a next state whose
outcome is a returned result, and the result NONE is returned by READ_RAW and READ_SCALED only. -/
def Obligations.OperationsReturnAndOnlyReadsReturnNone : Prop :=
  ∀ (i : Instr) (s : State), s.Ready → ∃ (t : State) (r : Result),
    exec i s = .next t ∧ t.outcome = some (.returned r) ∧
    (r = .noValue → i = .readRaw ∨ i = .readScaled)

/-- 10_state.md section 1: `initialized` changes only by INIT, which sets it, and DEINIT, which clears it; no
other operation writes it. -/
def Obligations.OnlyInitAndDeinitChangeInitialized : Prop :=
  ∀ (i : Instr) (s t : State), exec i s = .next t →
    t.initialized = s.initialized ∨
      (i.opcode = .init ∧ t.initialized = true) ∨ (i = .deinit ∧ t.initialized = false)

/-- The codec operations touch neither the lifecycle flag, the trace, the device nor its registers; DEINIT
issues nothing either; and a codec operation is valid whether or not the instance is initialized, with the
same result in both cases (40_codec.md). -/
def Obligations.NoTransactionOutsideInitAndReads : Prop :=
  (∀ (i : Instr) (s t : State), i.opcode ≠ .init → i ≠ .readRaw → i ≠ .readScaled →
    exec i s = .next t →
    t.trace = s.trace ∧ t.device = s.device ∧ t.draws = s.draws ∧
    (∀ a : Nat, t.byteAt a = s.byteAt a) ∧ (i ≠ .deinit → t.initialized = s.initialized)) ∧
  (∀ (i : Instr) (s : State), s.Ready → i.opcode ≠ .init → i ≠ .deinit → i ≠ .readRaw →
    i ≠ .readScaled →
    ∃ r : Result, ∀ flag : Bool,
      exec i { s with initialized := flag } = .next ({ s with initialized := flag }.endsWith r))

/-- 41_sequencer.md section 5 and 20_memory.md section 5: an operation only appends to the trace, at most ten
elements, each one the block may issue. -/
def Obligations.OperationsAppendAtMostTenLegalElements : Prop :=
  ∀ (i : Instr) (s t : State), exec i s = .next t →
    ∃ added : List Event, t.trace = s.trace ++ added ∧ added.length ≤ 10 ∧
      added.all Event.legal = true

/-- A step runs the decoded instruction: a host's blocking call whose command decodes to `i` runs `i`, the
move being consumed; and `withFetchWord` puts exactly that call in front (the model's own interface, log 2). -/
def Obligations.StepRunsTheDecodedCommand : Prop :=
  (∀ (c : Command) (i : Instr) (rest : List HostMove) (s : State),
    s.refused = false → s.inbox = .call c :: rest → decode c = .ok i →
    step s = exec i { s with inbox := rest }) ∧
  (∀ (nbits w : Nat) (i : Instr) (s : State),
    s.refused = false → decodeTableWord nbits w = some i →
    step (s.withFetchWord nbits w) = exec i s)

/-- A command issued without waiting: an operation that is no read runs whole; a read starts at `S_CHECK` on a
ready instance (41_sequencer.md section 5, first row; log 6), and on a moved-from or busy one it is refused as
every command is, with the mark and the reason and nothing else changed (60_exceptions.md section 2). -/
def Obligations.IssuedCommandsStartOrRun : Prop :=
  ∀ (c : Command) (i : Instr) (rest : List HostMove) (s : State),
    s.refused = false → s.inbox = .issue c :: rest → decode c = .ok i →
    (i ≠ .readRaw → i ≠ .readScaled → step s = exec i { s with inbox := rest }) ∧
    (s.Ready → i = .readRaw →
      step s = .next { s with inbox := rest, seq := .check, scaled := false }) ∧
    (s.Ready → i = .readScaled →
      step s = .next { s with inbox := rest, seq := .check, scaled := true }) ∧
    (i = .readRaw ∨ i = .readScaled → s.destroyed = false → s.live = false →
      step s = .next
        { s with inbox := rest, refused := true, outcome := some (.refused .movedFrom) }) ∧
    (i = .readRaw ∨ i = .readScaled → s.destroyed = false → s.live = true → s.seq ≠ .idle →
      step s = .next
        { s with inbox := rest, refused := true, outcome := some (.refused .concurrentCall) })

/-- The values of reset: the block's of 10_state.md section 3 (D12), and of the rest the model's choice: the
host's moves (log 2), the device's script and the count of its answers (log 3), the register file (log 4),
`scaled` (log 6), the last outcome (log 8) and `destroyed` (log 12); and the fixed parameters of 00_scope.md
section 4. -/
def Obligations.ResetAndParameters : Prop :=
  State.reset.initialized = false ∧ State.reset.live = true ∧ State.reset.refused = false ∧
  State.reset.seq = .idle ∧ State.reset.workGone ∧ State.reset.trace = [] ∧
  (∀ a : Nat, State.reset.byteAt a = none) ∧ State.reset.Ready ∧
  State.reset.inbox = [] ∧ State.reset.device = .oracle [] ∧ State.reset.draws = 0 ∧
  State.reset.outcome = none ∧ State.reset.scaled = false ∧ State.reset.destroyed = false ∧
  Config.tBiasMs = 10 ∧ Config.tConvMs = 50 ∧ Config.addrConfig = 0x00 ∧ Config.addrRtd = 0x01 ∧
  Config.addrHighFault = 0x03 ∧ Config.addrLowFault = 0x05 ∧ Config.addrFaultStatus = 0x07

/-- The invariant holds at reset: the canonical register file, legal traces and gone working registers, and
the bias invariant. -/
def Obligations.InvariantsHoldAtReset : Prop := State.reset.Inv ∧ State.reset.BiasInv

/-- Every step keeps the invariant: the register file stays canonical and within the map, every element issued
is one of the five transactions or a named delay, and the working registers are as their position needs them
(20_memory.md sections 2 to 5, 10_state.md section 1). -/
def Obligations.StepKeepsTheInvariant : Prop :=
  ∀ s t : State, s.Inv → step s = .next t → t.Inv

/-- Every step keeps RTD reads behind a settled bias (70_reset_and_hazards.md sections 2 and 3), whatever the
host does, whole operations and single positions alike. -/
def Obligations.StepKeepsBiasSettledBeforeRtdReads : Prop :=
  ∀ s t : State, s.BiasInv → step s = .next t → t.BiasInv

/-- No run meets a working register that holds no value (10_state.md section 1; D20): where the invariant
holds no step faults, and outside it a position that reads such a register does fault. `S_RESULT` reads the
fault flag, and the ratio only where the flag is clear (41_sequencer.md section 4 step 7); where it is set, it
returns NONE without a ratio. -/
def Obligations.WorkingRegistersAreNeverReadUnwritten : Prop :=
  (∀ (s : State) (f : Fault), s.Inv → step s ≠ .fault f) ∧
  (∀ s : State, s.refused = false → s.inbox = [] →
    (s.cWork = none → s.seq = .biasWr ∨ s.seq = .trigWr ∨ s.seq = .unbiasWr →
      step s = .fault (.unwrittenRegister .cWork)) ∧
    (s.modeL = none → s.seq = .settle → step s = .fault (.unwrittenRegister .modeL)) ∧
    (s.rtdFault = none → s.seq = .result → step s = .fault (.unwrittenRegister .rtdFault)) ∧
    (s.rtdFault = some 0 → s.rtdRatio = none → s.seq = .result →
      step s = .fault (.unwrittenRegister .rtdRatio)) ∧
    (s.rtdFault = some 1 → s.rtdRatio = none → s.seq = .result →
      step s = .next (s.endsWith .noValue)))

/-! ### Encoding -/

/-- Decoding the command of an instruction gives the instruction, with every operand at every value its width
admits (30_encoding.md section 3). -/
def Obligations.DecodeOfEncodeIsTheInstruction : Prop :=
  ∀ i : Instr, i.wellFormed = true ∧ decode (encode i) = .ok i

/-- Decoding accepts exactly the well-formed commands, and an accepted command is the one its instruction
encodes to: no two commands share a meaning and no operand is truncated (30_encoding.md section 3; D16). -/
def Obligations.DecodeAcceptsExactlyWellFormedCommands : Prop :=
  ∀ c : Command,
    (c.wellFormed = true ↔ ∃ i : Instr, decode c = .ok i) ∧
    (∀ i : Instr, decode c = .ok i → encode i = c) ∧
    (c.selectorListed = false → decode c = .error .reservedSelector)

/-- A few commands written out from the table and the programs of 95_test_vectors.md (selectors D16). -/
def Obligations.WrittenOutCommandsDecode : Prop :=
  decode ⟨0x01, [1, 0, 1, 1, 0b01, 0, 0]⟩ = .ok (.cfgEnc ⟨1, 0, 1, 1, 0b01, 0, 0⟩) ∧
  decode ⟨0x04, [0x83, 0xE8]⟩ = .ok (.rtdDec 0x83 0xE8) ∧
  decode ⟨0x06, [0xFC, 0x18]⟩ = .ok (.thrDec 0xFC 0x18) ∧
  decode ⟨0x10, [0xFF9C, 0x07D0, 0, 0b00, 0, 1, 0]⟩ =
    .ok (.init (-100) 2000 0 0b00 0 1 0) ∧
  decode ⟨0x12, []⟩ = .ok .readRaw ∧
  decode ⟨0x13, []⟩ = .ok .readScaled ∧
  decode ⟨0x09, []⟩ = .error .reservedSelector ∧
  decode ⟨0x10, [0, 0, 0, 4, 0, 0, 0]⟩ = .error .operandWidth

/-- The wiring selector (30_encoding.md sections 1 and 3): THREE is code 1, TWO and FOUR are code 0, so an INIT
with TWO and one with FOUR are the same operation with the same trace, and one with THREE differs from both
in the CONFIG byte it writes. -/
def Obligations.TwoAndFourWiresAreOneValue : Prop :=
  wiringCode .three = 1 ∧ wiringCode .two = 0 ∧ wiringCode .four = 0 ∧
  (∀ (tmin tmax : S16) (fd : BitVec 2) (fc fl cm : Bit) (s : State), s.Ready →
    exec (.init tmin tmax (wiringCode .two) fd fc fl cm) s =
      exec (.init tmin tmax (wiringCode .four) fd fc fl cm) s ∧
    ∃ t u : State,
      exec (.init tmin tmax (wiringCode .two) fd fc fl cm) s = .next t ∧
      exec (.init tmin tmax (wiringCode .three) fd fc fl cm) s = .next u ∧
      t.byteAt Config.addrConfig.toNat ≠ u.byteAt Config.addrConfig.toNat)

/-! ### The reference device, a claim about RefDev only -/

/-- Under RefDev with `conv_ok = 1` (20_memory.md section 6; D21, log 11), an INIT in ONESHOT mode and then a
READ_RAW give the source's pair as the reading, or NONE where its fault flag is set, and leave the CONFIG
byte INIT wrote with `fault_detect` and `fault_clear` cleared. The byte rests on the bit positions D1 and the
mode code D2 (log 15). -/
def Obligations.RefDevOneshotReading : Prop :=
  ∀ (tmin tmax : S16) (nw : Bit) (fd : BitVec 2) (fc fl : Bit) (r0 r1 : Byte) (s : State),
    s.Ready → s.device = .refDev true (r0, r1) →
    ∃ t u : State,
      exec (.init tmin tmax nw fd fc fl (convModeCode .oneshot)) s = .next t ∧
      exec .readRaw t = .next u ∧
      u.outcome = some (.returned
        (if r0.getLsbD 7 then .noValue else .raw (r0 ++ r1 : BitVec 16))) ∧
      u.byteAt Config.addrConfig.toNat =
        some (0#1 ++ convModeCode .oneshot ++ 0#1 ++ nw ++ 0#2 ++ 0#1 ++ fl : BitVec 8)

/-- Under RefDev with `conv_ok = 0` (20_memory.md section 6; D21, log 11), a ONESHOT READ_RAW after INIT returns
NONE and leaves vbias and oneshot set in CONFIG. The byte rests on the bit positions D1 and the mode code D2
(log 15). -/
def Obligations.RefDevUnfinishedConversionLeavesBias : Prop :=
  ∀ (tmin tmax : S16) (nw : Bit) (fd : BitVec 2) (fc fl : Bit) (src : Byte × Byte) (s : State),
    s.Ready → s.device = .refDev false src →
    ∃ t u : State,
      exec (.init tmin tmax nw fd fc fl (convModeCode .oneshot)) s = .next t ∧
      exec .readRaw t = .next u ∧
      u.outcome = some (.returned .noValue) ∧
      u.byteAt Config.addrConfig.toNat =
        some (1#1 ++ convModeCode .oneshot ++ 1#1 ++ nw ++ 0#2 ++ 0#1 ++ fl : BitVec 8)

/-! ### The field codes, and where the spec leaves a move of the host open -/

/-- The codes of the CONFIG fields with named values (30_encoding.md section 1), which are the spec's decisions
D2 to D5 (log 15); and what an INIT written with those names leaves in CONFIG, read back field by field. -/
def Obligations.FieldCodesReachConfig : Prop :=
  convModeCode .auto = 1 ∧ convModeCode .oneshot = 0 ∧
  faultDetectCode .none = 0b00 ∧ faultDetectCode .auto = 0b01 ∧
  faultDetectCode .manual1 = 0b10 ∧ faultDetectCode .manual2 = 0b11 ∧
  faultClearCode .auto = 1 ∧ faultClearCode .manual = 0 ∧
  mainsFilterCode .hz50 = 1 ∧ mainsFilterCode .hz60 = 0 ∧
  ∀ (tmin tmax : S16) (w : Wiring) (fd : FaultDetect) (fc : FaultClear) (fl : MainsFilter)
      (cm : ConvMode) (s : State), s.Ready → ∃ (t : State) (b : Byte),
    exec (.init tmin tmax (wiringCode w) (faultDetectCode fd) (faultClearCode fc)
      (mainsFilterCode fl) (convModeCode cm)) s = .next t ∧
    t.byteAt Config.addrConfig.toNat = some b ∧
    (cfgDec b).nwires = wiringCode w ∧ (cfgDec b).faultDetect = faultDetectCode fd ∧
    (cfgDec b).faultClear = faultClearCode fc ∧ (cfgDec b).mainsfilter = mainsFilterCode fl ∧
    (cfgDec b).convMode = convModeCode cm

/-- Where the host does what the spec gives no meaning, the model stops; every clause is the model's choice
(log 12): moving the instance away while an operation is in progress; a command, a move away or a second
destruction of a destroyed instance; and creating an instance on a transport that a living instance owns or
that a moved one took along. -/
def Obligations.OpenHostMovesStop : Prop :=
  (∀ (s : State) (rest : List HostMove), s.refused = false →
    (s.inbox = .moveAway :: rest → s.destroyed = false → s.seq ≠ .idle →
      step s = .refused .movedInFlight) ∧
    (∀ m : HostMove, s.inbox = m :: rest → s.destroyed = true →
      m = .moveAway ∨ m = .destroy ∨ (∃ c : Command, m = .call c ∨ m = .issue c) →
      step s = .refused .instanceDestroyed) ∧
    (s.inbox = .create :: rest → s.destroyed = false ∨ s.live = false →
      step s = .refused .transportOwned)) ∧
  ∀ (i : Instr) (s : State), s.destroyed = true → exec i s = .refused .instanceDestroyed
end

