-- ==== Sys2Proof/Laws/Memory.lean ====
section
/-! SUPPORT. The laws of the device register file: read after write, and that a write keeps the canonical form
and the map. -/

namespace Sys2Proof.Machine

theorem Memory.read_write_same (m : Memory) (a : Nat) (b : Byte) :
    Memory.read? (Memory.write m a b) a = some b := by
  induction m with
  | nil => simp [Memory.write, Memory.read?]
  | cons c rest ih =>
    simp only [Memory.write]
    split
    · simp [Memory.read?]
    · split
      · simp [Memory.read?]
      · have : ¬ c.1 = a := by omega
        simp [Memory.read?, this, ih]

theorem Memory.read_write_other (m : Memory) {a a' : Nat} (b : Byte) (h : a' ≠ a) :
    Memory.read? (Memory.write m a b) a' = Memory.read? m a' := by
  induction m with
  | nil => simp [Memory.write, Memory.read?, h.symm]
  | cons c rest ih =>
    simp only [Memory.write]
    split
    · simp [Memory.read?, h.symm]
    · split
      · have : ¬ c.1 = a' := by omega
        simp [Memory.read?, h.symm, this]
      · simp [Memory.read?, ih]

theorem Memory.write_write_same (m : Memory) (a : Nat) (b b' : Byte) :
    Memory.write (Memory.write m a b) a b' = Memory.write m a b' := by
  induction m with
  | nil => simp [Memory.write]
  | cons c rest ih =>
    simp only [Memory.write]
    split
    · simp [Memory.write]
    · split
      · simp [Memory.write]
      · simp_all [Memory.write]

/-- A list whose head lies below `c.1` may be put behind `c`. -/
theorem Memory.wf_cons (c : Host.Cell) (m : Memory) :
    Memory.wf (c :: m) = true ↔ (∀ d ∈ m.head?, c.1 < d.1) ∧ Memory.wf m = true := by
  cases m <;> simp [Memory.wf]

theorem Memory.head_write (m : Memory) (a : Nat) (b : Byte) (k : Nat) (hk : k < a)
    (h : ∀ d ∈ m.head?, k < d.1) : ∀ d ∈ (Memory.write m a b).head?, k < d.1 := by
  cases m with
  | nil => simpa [Memory.write] using hk
  | cons c rest =>
    simp only [Memory.write]
    split
    · simpa using hk
    · split
      · simpa using hk
      · simpa using h

theorem Memory.wf_write (m : Memory) (a : Nat) (b : Byte) (h : Memory.wf m = true) :
    Memory.wf (Memory.write m a b) = true := by
  induction m with
  | nil => simp [Memory.write, Memory.wf]
  | cons c rest ih =>
    obtain ⟨hc, hr⟩ := (Memory.wf_cons c rest).1 h
    simp only [Memory.write]
    split
    · rename_i hlt
      exact (Memory.wf_cons _ _).2 ⟨by simpa using hlt, h⟩
    · split
      · rename_i _ heq
        exact (Memory.wf_cons _ _).2 ⟨by simpa [heq] using hc, hr⟩
      · exact (Memory.wf_cons _ _).2 ⟨Memory.head_write rest a b c.1 (by omega) hc, ih hr⟩

theorem Memory.wf_writeBytes (bs : List Byte) (m : Memory) (a : Nat) (h : Memory.wf m = true) :
    Memory.wf (Memory.writeBytes m a bs) = true := by
  induction bs generalizing m a with
  | nil => exact h
  | cons b bs ih => exact ih _ _ (Memory.wf_write m a b h)

/-- A cell of a written register file is the written one or was there before. -/
theorem Memory.mem_write {m : Memory} {a : Nat} {b : Byte} {c : Host.Cell}
    (h : c ∈ Memory.write m a b) : c = (a, b) ∨ c ∈ m := by
  induction m with
  | nil => simpa [Memory.write] using h
  | cons d rest ih =>
    simp only [Memory.write] at h
    split at h
    · simpa using h
    · split at h
      · rcases List.mem_cons.1 h with h | h
        · exact .inl h
        · exact .inr (List.mem_cons_of_mem _ h)
      · rcases List.mem_cons.1 h with h | h
        · exact .inr (List.mem_cons.2 (.inl h))
        · exact (ih h).imp_right (List.mem_cons_of_mem _)

theorem Memory.inMap_write (m : Memory) (a : Nat) (b : Byte) (ha : a < Config.registerCount)
    (h : Memory.inMap m = true) : Memory.inMap (Memory.write m a b) = true := by
  refine List.all_eq_true.2 fun c hc => ?_
  rcases Memory.mem_write hc with rfl | hm
  · simpa using ha
  · exact List.all_eq_true.1 h c hm

theorem Memory.inMap_writeBytes (bs : List Byte) (m : Memory) (a : Nat)
    (ha : a + bs.length ≤ Config.registerCount) (h : Memory.inMap m = true) :
    Memory.inMap (Memory.writeBytes m a bs) = true := by
  induction bs generalizing m a with
  | nil => exact h
  | cons b bs ih =>
    simp only [List.length_cons] at ha
    exact ih _ _ (by omega) (Memory.inMap_write m a b (by omega) h)

@[simp] theorem Memory.writeBytes_one (m : Memory) (a : Nat) (b : Byte) :
    Memory.writeBytes m a [b] = Memory.write m a b := rfl

@[simp] theorem Memory.writeBytes_two (m : Memory) (a : Nat) (b b' : Byte) :
    Memory.writeBytes m a [b, b'] = Memory.write (Memory.write m a b) (a + 1) b' := rfl

end Sys2Proof.Machine
end

