-- ==== Sys2Proof/Laws/State.lean ====
section
/-! SUPPORT. What each named update of the state does to each field. -/

namespace Sys2Proof.Machine

/-! ### emit -/

@[simp] theorem emit_initialized (s : State) (e : Event) :
    (emit s e).initialized = s.initialized := rfl

@[simp] theorem emit_live (s : State) (e : Event) :
    (emit s e).live = s.live := rfl

@[simp] theorem emit_refused (s : State) (e : Event) :
    (emit s e).refused = s.refused := rfl

@[simp] theorem emit_seq (s : State) (e : Event) :
    (emit s e).seq = s.seq := rfl

@[simp] theorem emit_modeL (s : State) (e : Event) :
    (emit s e).modeL = s.modeL := rfl

@[simp] theorem emit_cWork (s : State) (e : Event) :
    (emit s e).cWork = s.cWork := rfl

@[simp] theorem emit_rtdRatio (s : State) (e : Event) :
    (emit s e).rtdRatio = s.rtdRatio := rfl

@[simp] theorem emit_rtdFault (s : State) (e : Event) :
    (emit s e).rtdFault = s.rtdFault := rfl

@[simp] theorem emit_trace (s : State) (e : Event) :
    (emit s e).trace = s.trace ++ [e] := rfl

@[simp] theorem emit_mem (s : State) (e : Event) :
    (emit s e).mem = s.mem := rfl

@[simp] theorem emit_device (s : State) (e : Event) :
    (emit s e).device = s.device := rfl

@[simp] theorem emit_draws (s : State) (e : Event) :
    (emit s e).draws = s.draws := rfl

@[simp] theorem emit_outcome (s : State) (e : Event) :
    (emit s e).outcome = s.outcome := rfl

@[simp] theorem emit_inbox (s : State) (e : Event) :
    (emit s e).inbox = s.inbox := rfl

@[simp] theorem emit_scaled (s : State) (e : Event) :
    (emit s e).scaled = s.scaled := rfl

@[simp] theorem emit_destroyed (s : State) (e : Event) :
    (emit s e).destroyed = s.destroyed := rfl

/-! ### memWrite -/

@[simp] theorem memWrite_initialized (s : State) (addr : Byte) (bytes : List Byte) :
    (memWrite s addr bytes).initialized = s.initialized := rfl

@[simp] theorem memWrite_live (s : State) (addr : Byte) (bytes : List Byte) :
    (memWrite s addr bytes).live = s.live := rfl

@[simp] theorem memWrite_refused (s : State) (addr : Byte) (bytes : List Byte) :
    (memWrite s addr bytes).refused = s.refused := rfl

@[simp] theorem memWrite_seq (s : State) (addr : Byte) (bytes : List Byte) :
    (memWrite s addr bytes).seq = s.seq := rfl

@[simp] theorem memWrite_modeL (s : State) (addr : Byte) (bytes : List Byte) :
    (memWrite s addr bytes).modeL = s.modeL := rfl

@[simp] theorem memWrite_cWork (s : State) (addr : Byte) (bytes : List Byte) :
    (memWrite s addr bytes).cWork = s.cWork := rfl

@[simp] theorem memWrite_rtdRatio (s : State) (addr : Byte) (bytes : List Byte) :
    (memWrite s addr bytes).rtdRatio = s.rtdRatio := rfl

@[simp] theorem memWrite_rtdFault (s : State) (addr : Byte) (bytes : List Byte) :
    (memWrite s addr bytes).rtdFault = s.rtdFault := rfl

@[simp] theorem memWrite_trace (s : State) (addr : Byte) (bytes : List Byte) :
    (memWrite s addr bytes).trace = s.trace ++ [.wr addr bytes] := rfl

@[simp] theorem memWrite_mem (s : State) (addr : Byte) (bytes : List Byte) :
    (memWrite s addr bytes).mem = Memory.writeBytes s.mem addr.toNat bytes := rfl

@[simp] theorem memWrite_device (s : State) (addr : Byte) (bytes : List Byte) :
    (memWrite s addr bytes).device = s.device := rfl

@[simp] theorem memWrite_draws (s : State) (addr : Byte) (bytes : List Byte) :
    (memWrite s addr bytes).draws = s.draws := rfl

@[simp] theorem memWrite_outcome (s : State) (addr : Byte) (bytes : List Byte) :
    (memWrite s addr bytes).outcome = s.outcome := rfl

@[simp] theorem memWrite_inbox (s : State) (addr : Byte) (bytes : List Byte) :
    (memWrite s addr bytes).inbox = s.inbox := rfl

@[simp] theorem memWrite_scaled (s : State) (addr : Byte) (bytes : List Byte) :
    (memWrite s addr bytes).scaled = s.scaled := rfl

@[simp] theorem memWrite_destroyed (s : State) (addr : Byte) (bytes : List Byte) :
    (memWrite s addr bytes).destroyed = s.destroyed := rfl

/-! ### refuse -/

@[simp] theorem refuse_initialized (reason : RefuseReason) (s : State) :
    (refuse reason s).initialized = s.initialized := rfl

@[simp] theorem refuse_live (reason : RefuseReason) (s : State) :
    (refuse reason s).live = s.live := rfl

@[simp] theorem refuse_refused (reason : RefuseReason) (s : State) :
    (refuse reason s).refused = true := rfl

@[simp] theorem refuse_seq (reason : RefuseReason) (s : State) :
    (refuse reason s).seq = s.seq := rfl

@[simp] theorem refuse_modeL (reason : RefuseReason) (s : State) :
    (refuse reason s).modeL = s.modeL := rfl

@[simp] theorem refuse_cWork (reason : RefuseReason) (s : State) :
    (refuse reason s).cWork = s.cWork := rfl

@[simp] theorem refuse_rtdRatio (reason : RefuseReason) (s : State) :
    (refuse reason s).rtdRatio = s.rtdRatio := rfl

@[simp] theorem refuse_rtdFault (reason : RefuseReason) (s : State) :
    (refuse reason s).rtdFault = s.rtdFault := rfl

@[simp] theorem refuse_trace (reason : RefuseReason) (s : State) :
    (refuse reason s).trace = s.trace := rfl

@[simp] theorem refuse_mem (reason : RefuseReason) (s : State) :
    (refuse reason s).mem = s.mem := rfl

@[simp] theorem refuse_device (reason : RefuseReason) (s : State) :
    (refuse reason s).device = s.device := rfl

@[simp] theorem refuse_draws (reason : RefuseReason) (s : State) :
    (refuse reason s).draws = s.draws := rfl

@[simp] theorem refuse_outcome (reason : RefuseReason) (s : State) :
    (refuse reason s).outcome = some (.refused reason) := rfl

@[simp] theorem refuse_inbox (reason : RefuseReason) (s : State) :
    (refuse reason s).inbox = s.inbox := rfl

@[simp] theorem refuse_scaled (reason : RefuseReason) (s : State) :
    (refuse reason s).scaled = s.scaled := rfl

@[simp] theorem refuse_destroyed (reason : RefuseReason) (s : State) :
    (refuse reason s).destroyed = s.destroyed := rfl

/-! ### finish -/

@[simp] theorem finish_initialized (r : Result) (s : State) :
    (finish r s).initialized = s.initialized := rfl

@[simp] theorem finish_live (r : Result) (s : State) :
    (finish r s).live = s.live := rfl

@[simp] theorem finish_refused (r : Result) (s : State) :
    (finish r s).refused = s.refused := rfl

@[simp] theorem finish_seq (r : Result) (s : State) :
    (finish r s).seq = .idle := rfl

@[simp] theorem finish_modeL (r : Result) (s : State) :
    (finish r s).modeL = none := rfl

@[simp] theorem finish_cWork (r : Result) (s : State) :
    (finish r s).cWork = none := rfl

@[simp] theorem finish_rtdRatio (r : Result) (s : State) :
    (finish r s).rtdRatio = none := rfl

@[simp] theorem finish_rtdFault (r : Result) (s : State) :
    (finish r s).rtdFault = none := rfl

@[simp] theorem finish_trace (r : Result) (s : State) :
    (finish r s).trace = s.trace := rfl

@[simp] theorem finish_mem (r : Result) (s : State) :
    (finish r s).mem = s.mem := rfl

@[simp] theorem finish_device (r : Result) (s : State) :
    (finish r s).device = s.device := rfl

@[simp] theorem finish_draws (r : Result) (s : State) :
    (finish r s).draws = s.draws := rfl

@[simp] theorem finish_outcome (r : Result) (s : State) :
    (finish r s).outcome = some (.returned r) := rfl

@[simp] theorem finish_inbox (r : Result) (s : State) :
    (finish r s).inbox = s.inbox := rfl

@[simp] theorem finish_scaled (r : Result) (s : State) :
    (finish r s).scaled = false := rfl

@[simp] theorem finish_destroyed (r : Result) (s : State) :
    (finish r s).destroyed = s.destroyed := rfl

/-! ### startRead -/

@[simp] theorem startRead_initialized (scaled : Bool) (s : State) :
    (startRead scaled s).initialized = s.initialized := rfl

@[simp] theorem startRead_live (scaled : Bool) (s : State) :
    (startRead scaled s).live = s.live := rfl

@[simp] theorem startRead_refused (scaled : Bool) (s : State) :
    (startRead scaled s).refused = s.refused := rfl

@[simp] theorem startRead_seq (scaled : Bool) (s : State) :
    (startRead scaled s).seq = .check := rfl

@[simp] theorem startRead_modeL (scaled : Bool) (s : State) :
    (startRead scaled s).modeL = s.modeL := rfl

@[simp] theorem startRead_cWork (scaled : Bool) (s : State) :
    (startRead scaled s).cWork = s.cWork := rfl

@[simp] theorem startRead_rtdRatio (scaled : Bool) (s : State) :
    (startRead scaled s).rtdRatio = s.rtdRatio := rfl

@[simp] theorem startRead_rtdFault (scaled : Bool) (s : State) :
    (startRead scaled s).rtdFault = s.rtdFault := rfl

@[simp] theorem startRead_trace (scaled : Bool) (s : State) :
    (startRead scaled s).trace = s.trace := rfl

@[simp] theorem startRead_mem (scaled : Bool) (s : State) :
    (startRead scaled s).mem = s.mem := rfl

@[simp] theorem startRead_device (scaled : Bool) (s : State) :
    (startRead scaled s).device = s.device := rfl

@[simp] theorem startRead_draws (scaled : Bool) (s : State) :
    (startRead scaled s).draws = s.draws := rfl

@[simp] theorem startRead_outcome (scaled : Bool) (s : State) :
    (startRead scaled s).outcome = s.outcome := rfl

@[simp] theorem startRead_inbox (scaled : Bool) (s : State) :
    (startRead scaled s).inbox = s.inbox := rfl

@[simp] theorem startRead_scaled (scaled : Bool) (s : State) :
    (startRead scaled s).scaled = scaled := rfl

@[simp] theorem startRead_destroyed (scaled : Bool) (s : State) :
    (startRead scaled s).destroyed = s.destroyed := rfl

/-! ### endsWith -/

@[simp] theorem endsWith_initialized (s : State) (r : Result) :
    (s.endsWith r).initialized = s.initialized := rfl

@[simp] theorem endsWith_live (s : State) (r : Result) :
    (s.endsWith r).live = s.live := rfl

@[simp] theorem endsWith_refused (s : State) (r : Result) :
    (s.endsWith r).refused = s.refused := rfl

@[simp] theorem endsWith_seq (s : State) (r : Result) :
    (s.endsWith r).seq = .idle := rfl

@[simp] theorem endsWith_modeL (s : State) (r : Result) :
    (s.endsWith r).modeL = none := rfl

@[simp] theorem endsWith_cWork (s : State) (r : Result) :
    (s.endsWith r).cWork = none := rfl

@[simp] theorem endsWith_rtdRatio (s : State) (r : Result) :
    (s.endsWith r).rtdRatio = none := rfl

@[simp] theorem endsWith_rtdFault (s : State) (r : Result) :
    (s.endsWith r).rtdFault = none := rfl

@[simp] theorem endsWith_trace (s : State) (r : Result) :
    (s.endsWith r).trace = s.trace := rfl

@[simp] theorem endsWith_mem (s : State) (r : Result) :
    (s.endsWith r).mem = s.mem := rfl

@[simp] theorem endsWith_device (s : State) (r : Result) :
    (s.endsWith r).device = s.device := rfl

@[simp] theorem endsWith_draws (s : State) (r : Result) :
    (s.endsWith r).draws = s.draws := rfl

@[simp] theorem endsWith_outcome (s : State) (r : Result) :
    (s.endsWith r).outcome = some (.returned r) := rfl

@[simp] theorem endsWith_inbox (s : State) (r : Result) :
    (s.endsWith r).inbox = s.inbox := rfl

@[simp] theorem endsWith_scaled (s : State) (r : Result) :
    (s.endsWith r).scaled = false := rfl

@[simp] theorem endsWith_destroyed (s : State) (r : Result) :
    (s.endsWith r).destroyed = s.destroyed := rfl

/-! ### resetBlock -/

@[simp] theorem resetBlock_initialized (s : State) :
    (resetBlock s).initialized = State.reset.initialized := rfl

@[simp] theorem resetBlock_live (s : State) :
    (resetBlock s).live = State.reset.live := rfl

@[simp] theorem resetBlock_refused (s : State) :
    (resetBlock s).refused = State.reset.refused := rfl

@[simp] theorem resetBlock_seq (s : State) :
    (resetBlock s).seq = State.reset.seq := rfl

@[simp] theorem resetBlock_modeL (s : State) :
    (resetBlock s).modeL = State.reset.modeL := rfl

@[simp] theorem resetBlock_cWork (s : State) :
    (resetBlock s).cWork = State.reset.cWork := rfl

@[simp] theorem resetBlock_rtdRatio (s : State) :
    (resetBlock s).rtdRatio = State.reset.rtdRatio := rfl

@[simp] theorem resetBlock_rtdFault (s : State) :
    (resetBlock s).rtdFault = State.reset.rtdFault := rfl

@[simp] theorem resetBlock_trace (s : State) :
    (resetBlock s).trace = State.reset.trace := rfl

@[simp] theorem resetBlock_mem (s : State) :
    (resetBlock s).mem = s.mem := rfl

@[simp] theorem resetBlock_device (s : State) :
    (resetBlock s).device = s.device := rfl

@[simp] theorem resetBlock_draws (s : State) :
    (resetBlock s).draws = s.draws := rfl

@[simp] theorem resetBlock_outcome (s : State) :
    (resetBlock s).outcome = State.reset.outcome := rfl

@[simp] theorem resetBlock_inbox (s : State) :
    (resetBlock s).inbox = s.inbox := rfl

@[simp] theorem resetBlock_scaled (s : State) :
    (resetBlock s).scaled = State.reset.scaled := rfl

@[simp] theorem resetBlock_destroyed (s : State) :
    (resetBlock s).destroyed = State.reset.destroyed := rfl

end Sys2Proof.Machine
end

