-- ==== Sys2Proof/Laws/Ops.lean ====
section
/-! SUPPORT. For each shared operation, one lemma that says everything it can do. -/

namespace Sys2Proof.Machine

/-- An answered byte changes only the device's script and the count of draws. -/
theorem answerByte_spec (s : State) (a : Nat) :
    ∃ d, (answerByte s a).2 = { s with device := d, draws := s.draws + 1 } := by
  unfold answerByte
  split
  · exact ⟨_, rfl⟩
  · exact ⟨s.device, rfl⟩
  · exact ⟨s.device, rfl⟩

/-- An answered pair changes only the device's script and the count of draws. -/
theorem answerPair_spec (s : State) (a : Nat) :
    ∃ d, (answerPair s a).2 = { s with device := d, draws := s.draws + 2 } := by
  obtain ⟨d, hd⟩ := answerByte_spec s a
  obtain ⟨e, he⟩ := answerByte_spec (answerByte s a).2 (a + 1)
  have both : (answerByte (answerByte s a).2 (a + 1)).2
      = { s with device := e, draws := s.draws + 2 } := by rw [he, hd]
  unfold answerPair
  split
  · split
    · exact ⟨s.device, rfl⟩
    · exact ⟨e, both⟩
  · exact ⟨e, both⟩

/-- A 1-byte read: the byte is answered and one RD element is appended. -/
theorem readByte_spec (s : State) (addr : Byte) :
    ∃ d, (readByte s addr).2 =
      { s with
        device := d, draws := s.draws + 1,
        trace := s.trace ++ [.rd addr [(readByte s addr).1]] } := by
  obtain ⟨d, hd⟩ := answerByte_spec s addr.toNat
  exact ⟨d, by simp only [readByte, hd, emit]⟩

/-- A 2-byte read: the pair is answered and one RD element is appended. -/
theorem readPair_spec (s : State) (addr : Byte) :
    ∃ d, (readPair s addr).2 =
      { s with
        device := d, draws := s.draws + 2,
        trace := s.trace ++ [.rd addr [(readPair s addr).1.1, (readPair s addr).1.2]] } := by
  obtain ⟨d, hd⟩ := answerPair_spec s addr.toNat
  exact ⟨d, by simp only [readPair, hd, emit]⟩

/-- RefDev's reaction to a delay: the register file is as before, or CONFIG has lost `oneshot`. -/
theorem refDevDelay_spec (s : State) :
    refDevDelay s = s ∨
      ∃ b, Memory.read? s.mem Config.addrConfig.toNat = some b ∧
        refDevDelay s =
          { s with mem := Memory.write s.mem Config.addrConfig.toNat (b &&& 0xDF) } := by
  unfold refDevDelay
  split
  · exact .inl rfl
  · split
    · rename_i w b _ hb
      split
      · exact .inr ⟨b, hb, rfl⟩
      · exact .inl rfl
    · exact .inl rfl

/-- A device that is no RefDev does not react to a delay. -/
theorem refDevDelay_oracle (s : State) {l : List Byte} (h : s.device = .oracle l) :
    refDevDelay s = s := by
  unfold refDevDelay
  rw [h]

/-- A delay appends one DLY element, and beyond that RefDev may clear `oneshot` in CONFIG. -/
theorem delay_spec (s : State) (ms : Nat) :
    ∃ m, delay s ms = { s with mem := m, trace := s.trace ++ [.dly ms] } ∧
      (m = s.mem ∨ ∃ b, Memory.read? s.mem Config.addrConfig.toNat = some b ∧
        m = Memory.write s.mem Config.addrConfig.toNat (b &&& 0xDF)) := by
  rcases refDevDelay_spec s with h | ⟨b, hb, h⟩
  · exact ⟨s.mem, by simp only [delay, emit, h], .inl rfl⟩
  · exact ⟨_, by simp only [delay, emit, h], .inr ⟨b, hb, rfl⟩⟩

/-- A ready instance runs the operation. -/
theorem accept_ready {s : State} (h : s.Ready) (run : State → State) :
    accept s run = .next (run s) := by
  obtain ⟨h1, h2, h3, h4⟩ := h
  simp [accept, h1, h2, h3, h4]

/-- A command never faults, and where it answers a next state the operation ran or was refused. -/
theorem accept_next {s t : State} {run : State → State} (h : accept s run = .next t) :
    (s.Ready ∧ t = run s) ∨
      (s.refused = false ∧ s.destroyed = false ∧ (s.live = false ∨ s.seq ≠ .idle) ∧
        ∃ reason, t = refuse reason s) := by
  unfold accept at h
  split at h
  · cases h
  · rename_i h1
    split at h
    · cases h
    · rename_i h2
      split at h
      · rename_i h3
        cases h
        exact .inr ⟨by simpa using h2, by simpa using h1, .inl (by simpa using h3), _, rfl⟩
      · rename_i h3
        split at h
        · rename_i h4
          cases h
          exact .inr ⟨by simpa using h2, by simpa using h1, .inr h4, _, rfl⟩
        · rename_i h4
          cases h
          exact .inl ⟨⟨by simpa using h1, by simpa using h2, by simpa using h3,
            by simpa using h4⟩, rfl⟩

theorem accept_no_fault (s : State) (run : State → State) (f : Fault) :
    accept s run ≠ .fault f := by
  unfold accept
  repeat' split
  all_goals simp

/-- A position that reads a working register goes on where it holds a value. -/
@[simp] theorem withReg_some {α : Type} (r : WorkReg) (v : α)
    (go : α → Host.Outcome State Fault Refusal) : withReg r (some v) go = go v := rfl

/-- A position that reads a working register faults where it holds none (R22). -/
@[simp] theorem withReg_none {α : Type} (r : WorkReg)
    (go : α → Host.Outcome State Fault Refusal) : withReg r none go = .fault (.unwrittenRegister r) := rfl

/-- `S_RESULT` with the fault flag set returns NONE, whether or not there is a ratio (R114). -/
theorem atResult_fault {s : State} (h : s.rtdFault = some 1) :
    atResult s = .next (returnRead none s) := by
  simp [atResult, h, rtdFaulted]

/-- `S_RESULT` with the fault flag clear returns the ratio (R114). -/
theorem atResult_ratio {s : State} {ratio : Ratio} (h : s.rtdFault = some 0)
    (hr : s.rtdRatio = some ratio) :
    atResult s = .next (returnRead (some (ratioResult ratio)) s) := by
  simp [atResult, h, hr, rtdFaulted]

/-- `finish` is the end of an operation that the statements speak of. -/
theorem finish_eq_endsWith (r : Result) (s : State) : finish r s = s.endsWith r := rfl

/-- With no move pending, a step of an instance that is not refused is one position. -/
theorem step_no_move {s : State} (hr : s.refused = false) (hi : s.inbox = []) :
    step s = advance Config.autoRecheck s := by
  simp [step, goOn, hr, hi]

/-- A step takes the host's next move. -/
theorem step_move {s : State} {m : HostMove} {rest : List HostMove} (hr : s.refused = false)
    (hi : s.inbox = m :: rest) : step s = hostMove m { s with inbox := rest } := by
  simp [step, hr, hi]

end Sys2Proof.Machine
end

