-- ==== Sys2Proof/Laws/Exec.lean ====
section
/-! SUPPORT. Every operation is one state transformer behind the same acceptance (R97, R126): what the meanings
do, said once. -/

namespace Sys2Proof.Machine

/-- What an accepted operation does to the state. -/
def effect : Instr → State → State
  | .cfgEnc c => finish (.byte (cfgEnc c))
  | .cfgDec b => finish (.config (cfgDec b))
  | .rtdEnc ratio fault => finish (.byteSeq [(rtdEnc ratio fault).1, (rtdEnc ratio fault).2])
  | .rtdDec b0 b1 => finish (.rtd (rtdDec b0 b1).1 (rtdDec b0 b1).2)
  | .thrEnc t => finish (.byteSeq [(thrEnc t).1, (thrEnc t).2])
  | .thrDec b0 b1 => finish (.threshold (thrDec b0 b1))
  | .fltEnc raw => finish (.byteSeq (fltEnc raw))
  | .fltDec b0 => finish (.byte (fltDec b0))
  | .init tmin tmax nw fd fc fl cm => fun s =>
    finish .ok { initWrites tmin tmax (initConfig nw fd fc fl cm) s with initialized := true }
  | .deinit => fun s => finish .ok { s with initialized := false }
  | .readRaw => fun s =>
    finish (rawResult (readRawSequence Config.autoRecheck s).1)
      (readRawSequence Config.autoRecheck s).2
  | .readScaled => fun s =>
    finish (scaledResult (readRawSequence Config.autoRecheck s).1)
      (readRawSequence Config.autoRecheck s).2

/-- Every operation is its effect behind the acceptance. -/
theorem exec_eq_accept (i : Instr) (s : State) : exec i s = accept s (effect i) := by
  cases i <;> rfl

/-- A ready instance runs every operation. -/
theorem exec_ready {s : State} (h : s.Ready) (i : Instr) : exec i s = .next (effect i s) := by
  rw [exec_eq_accept, accept_ready h]

/-- Where an operation answers a next state, it ran or was refused. -/
theorem exec_next {i : Instr} {s t : State} (h : exec i s = .next t) :
    (s.Ready ∧ t = effect i s) ∨
      (s.refused = false ∧ s.destroyed = false ∧ (s.live = false ∨ s.seq ≠ .idle) ∧
        ∃ reason, t = refuse reason s) :=
  accept_next (exec_eq_accept i s ▸ h)

/-- No operation faults (R123). -/
theorem exec_no_fault (i : Instr) (s : State) (f : Fault) : exec i s ≠ .fault f :=
  exec_eq_accept i s ▸ accept_no_fault s _ f

end Sys2Proof.Machine
end

