-- ==== Sys2Proof/Laws/PerInstr.lean ====
section
/-! SUPPORT. Statements made instruction by instruction. `WellTyped`: an instruction's command is well-formed
whatever its operands are, because an operand cannot hold a value outside its width (R77). -/

namespace Sys2Proof

/-- A selector of the table names its operation (R75). -/
@[simp] theorem Opcode.ofSelector_selector (op : Opcode) :
    Opcode.ofSelector op.selector = some op := by
  cases op <;> rfl

namespace Laws.WellTyped

/-- The command of `i` is well-formed. -/
def Statement (i : Instr) : Prop := i.wellFormed = true

/-- An instruction is well-formed where it has a value for each field, in the field's width. -/
theorem of_operands (i : Instr) (count : i.opcode.widths.length = i.operandValues.length)
    (width : ∀ wv ∈ i.opcode.widths.zip i.operandValues, wv.2 < 2 ^ wv.1) : Statement i := by
  simpa [Statement, Instr.wellFormed, Command.wellFormed, Command.selectorListed,
    Command.fieldsComplete, Command.fieldsInWidth, encode, count] using width

/-- One more field whose value lies in its width. -/
theorem width_cons {w v : Nat} {ws vs : List Nat} (h : v < 2 ^ w)
    (later : ∀ wv ∈ ws.zip vs, wv.2 < 2 ^ wv.1) :
    ∀ wv ∈ (w :: ws).zip (v :: vs), wv.2 < 2 ^ wv.1 := by
  simpa using ⟨h, fun a b hab => later (a, b) hab⟩

/-- No field left. -/
theorem width_nil : ∀ wv ∈ ([] : List Nat).zip ([] : List Nat), wv.2 < 2 ^ wv.1 := by simp

theorem cfgEnc (c : CfgRecord) : Statement (.cfgEnc c) :=
  of_operands _ rfl <|
    width_cons c.vbias.isLt <| width_cons c.convMode.isLt <| width_cons c.oneshot.isLt <| width_cons c.nwires.isLt <|
      width_cons c.faultDetect.isLt <| width_cons c.faultClear.isLt <| width_cons c.mainsfilter.isLt <| width_nil

theorem cfgDec (b : Byte) : Statement (.cfgDec b) :=
  of_operands _ rfl <|
    width_cons b.isLt <| width_nil

theorem rtdEnc (ratio : Ratio) (fault : Bit) : Statement (.rtdEnc ratio fault) :=
  of_operands _ rfl <|
    width_cons ratio.isLt <| width_cons fault.isLt <| width_nil

theorem rtdDec (b0 b1 : Byte) : Statement (.rtdDec b0 b1) :=
  of_operands _ rfl <|
    width_cons b0.isLt <| width_cons b1.isLt <| width_nil

theorem thrEnc (t : S16) : Statement (.thrEnc t) :=
  of_operands _ rfl <|
    width_cons t.isLt <| width_nil

theorem thrDec (b0 b1 : Byte) : Statement (.thrDec b0 b1) :=
  of_operands _ rfl <|
    width_cons b0.isLt <| width_cons b1.isLt <| width_nil

theorem fltEnc (raw : Byte) : Statement (.fltEnc raw) :=
  of_operands _ rfl <|
    width_cons raw.isLt <| width_nil

theorem fltDec (b0 : Byte) : Statement (.fltDec b0) :=
  of_operands _ rfl <|
    width_cons b0.isLt <| width_nil

theorem init (thresholdMin thresholdMax : S16) (nwires : Bit) (faultDetect : BitVec 2)
    (faultClear filter convMode : Bit) :
    Statement (.init thresholdMin thresholdMax nwires faultDetect faultClear filter convMode) :=
  of_operands _ rfl <|
    width_cons thresholdMin.isLt <| width_cons thresholdMax.isLt <| width_cons nwires.isLt <| width_cons faultDetect.isLt <|
      width_cons faultClear.isLt <| width_cons filter.isLt <| width_cons convMode.isLt <| width_nil

theorem deinit : Statement .deinit := by rfl

theorem readRaw : Statement .readRaw := by rfl

theorem readScaled : Statement .readScaled := by rfl

end Laws.WellTyped

end Sys2Proof
end

