-- ==== Sys2Proof/Laws/Traffic.lean ====
section
/-! SUPPORT. Everything an operation does between its start and its return is traffic: bytes drawn from the
device, bytes written to its registers, elements appended to the trace. One form for it, and one lemma for
each step of READ_RAW in that form. -/

namespace Sys2Proof.Machine

/-- `s` after traffic: the device has become `d`, has answered `k` bytes in all, the register file is `m`, and
the trace has grown by `evs`. -/
def State.after (s : State) (d : Device) (k : Nat) (m : Memory) (evs : List Event) : State :=
  { s with device := d, draws := k, mem := m, trace := s.trace ++ evs }

@[simp] theorem after_initialized (s : State) (d : Device) (k : Nat) (m : Memory) (evs : List Event) :
    (s.after d k m evs).initialized = s.initialized := rfl
@[simp] theorem after_live (s : State) (d : Device) (k : Nat) (m : Memory) (evs : List Event) :
    (s.after d k m evs).live = s.live := rfl
@[simp] theorem after_refused (s : State) (d : Device) (k : Nat) (m : Memory) (evs : List Event) :
    (s.after d k m evs).refused = s.refused := rfl
@[simp] theorem after_seq (s : State) (d : Device) (k : Nat) (m : Memory) (evs : List Event) :
    (s.after d k m evs).seq = s.seq := rfl
@[simp] theorem after_modeL (s : State) (d : Device) (k : Nat) (m : Memory) (evs : List Event) :
    (s.after d k m evs).modeL = s.modeL := rfl
@[simp] theorem after_cWork (s : State) (d : Device) (k : Nat) (m : Memory) (evs : List Event) :
    (s.after d k m evs).cWork = s.cWork := rfl
@[simp] theorem after_rtdRatio (s : State) (d : Device) (k : Nat) (m : Memory) (evs : List Event) :
    (s.after d k m evs).rtdRatio = s.rtdRatio := rfl
@[simp] theorem after_rtdFault (s : State) (d : Device) (k : Nat) (m : Memory) (evs : List Event) :
    (s.after d k m evs).rtdFault = s.rtdFault := rfl
@[simp] theorem after_trace (s : State) (d : Device) (k : Nat) (m : Memory) (evs : List Event) :
    (s.after d k m evs).trace = s.trace ++ evs := rfl
@[simp] theorem after_mem (s : State) (d : Device) (k : Nat) (m : Memory) (evs : List Event) :
    (s.after d k m evs).mem = m := rfl
@[simp] theorem after_device (s : State) (d : Device) (k : Nat) (m : Memory) (evs : List Event) :
    (s.after d k m evs).device = d := rfl
@[simp] theorem after_draws (s : State) (d : Device) (k : Nat) (m : Memory) (evs : List Event) :
    (s.after d k m evs).draws = k := rfl
@[simp] theorem after_outcome (s : State) (d : Device) (k : Nat) (m : Memory) (evs : List Event) :
    (s.after d k m evs).outcome = s.outcome := rfl
@[simp] theorem after_inbox (s : State) (d : Device) (k : Nat) (m : Memory) (evs : List Event) :
    (s.after d k m evs).inbox = s.inbox := rfl
@[simp] theorem after_scaled (s : State) (d : Device) (k : Nat) (m : Memory) (evs : List Event) :
    (s.after d k m evs).scaled = s.scaled := rfl
@[simp] theorem after_destroyed (s : State) (d : Device) (k : Nat) (m : Memory) (evs : List Event) :
    (s.after d k m evs).destroyed = s.destroyed := rfl

/-- Traffic after traffic is traffic. -/
@[simp] theorem after_after (s : State) (d d' : Device) (k k' : Nat) (m m' : Memory)
    (evs evs' : List Event) :
    (s.after d k m evs).after d' k' m' evs' = s.after d' k' m' (evs ++ evs') := by
  simp [State.after]

/-- No traffic. -/
theorem after_nil (s : State) : s = s.after s.device s.draws s.mem [] := by
  simp [State.after]

/-- A 1-byte read is traffic. -/
theorem readByte_after (s : State) (addr : Byte) :
    ∃ b d, readByte s addr = (b, s.after d (s.draws + 1) s.mem [.rd addr [b]]) := by
  obtain ⟨d, h⟩ := readByte_spec s addr
  exact ⟨_, d, Prod.ext rfl h⟩

/-- A 2-byte read is traffic. -/
theorem readPair_after (s : State) (addr : Byte) :
    ∃ b0 b1 d, readPair s addr = ((b0, b1), s.after d (s.draws + 2) s.mem [.rd addr [b0, b1]]) := by
  obtain ⟨d, h⟩ := readPair_spec s addr
  exact ⟨_, _, d, Prod.ext rfl h⟩

/-- A write is traffic. -/
theorem memWrite_after (s : State) (addr : Byte) (bytes : List Byte) :
    memWrite s addr bytes =
      s.after s.device s.draws (Memory.writeBytes s.mem addr.toNat bytes) [.wr addr bytes] := rfl

/-- A register file a delay can leave: as it was, or CONFIG without `oneshot` (R58 c). -/
def Memory.delayed (m m' : Memory) : Prop :=
  m' = m ∨ ∃ b, Memory.read? m Config.addrConfig.toNat = some b ∧
    m' = Memory.write m Config.addrConfig.toNat (b &&& 0xDF)

/-- A delay is traffic. -/
theorem delay_after (s : State) (ms : Nat) :
    ∃ m, delay s ms = s.after s.device s.draws m [.dly ms] ∧ Memory.delayed s.mem m :=
  delay_spec s ms

/-- A write after traffic. -/
@[simp] theorem memWrite_of_after (s : State) (d : Device) (k : Nat) (m : Memory)
    (evs : List Event) (addr : Byte) (bytes : List Byte) :
    memWrite (s.after d k m evs) addr bytes =
      s.after d k (Memory.writeBytes m addr.toNat bytes) (evs ++ [.wr addr bytes]) := by
  simp [memWrite_after]

/-- A delay after traffic. -/
theorem delay_of_after (s : State) (d : Device) (k : Nat) (m : Memory) (evs : List Event) (ms : Nat) :
    ∃ m', delay (s.after d k m evs) ms = s.after d k m' (evs ++ [.dly ms]) ∧
      Memory.delayed m m' := by
  obtain ⟨m', h, hm⟩ := delay_after (s.after d k m evs) ms
  exact ⟨m', by simp [h], hm⟩

/-- Step 2 is traffic: the answered CONFIG byte gives the mode, and the bias-enable byte is written (R105). -/
theorem biasStep_after (s : State) :
    ∃ c d k m, biasStep s = ((cfgDec c).convMode,
      s.after d k m [.rd Config.addrConfig [c], .wr Config.addrConfig [biasEnableByte c],
        .dly Config.tBiasMs]) ∧
      Memory.delayed (Memory.write s.mem Config.addrConfig.toNat (biasEnableByte c)) m := by
  obtain ⟨c, d, hr⟩ := readByte_after s Config.addrConfig
  obtain ⟨m, hd, hm⟩ := delay_of_after s d (s.draws + 1)
    (Memory.write s.mem Config.addrConfig.toNat (biasEnableByte c))
    [.rd Config.addrConfig [c], .wr Config.addrConfig [biasEnableByte c]] Config.tBiasMs
  exact ⟨c, d, s.draws + 1, m, by simp [biasStep, hr, hd], hm⟩

/-- Step 3 is traffic: the trigger byte of the answered CONFIG byte is written (R108). -/
theorem triggerStep_after (s : State) :
    ∃ c d k m, triggerStep s =
      s.after d k m [.rd Config.addrConfig [c], .wr Config.addrConfig [triggerByte c],
        .dly Config.tConvMs] ∧
      Memory.delayed (Memory.write s.mem Config.addrConfig.toNat (triggerByte c)) m := by
  obtain ⟨c, d, hr⟩ := readByte_after s Config.addrConfig
  obtain ⟨m, hd, hm⟩ := delay_of_after s d (s.draws + 1)
    (Memory.write s.mem Config.addrConfig.toNat (triggerByte c))
    [.rd Config.addrConfig [c], .wr Config.addrConfig [triggerByte c]] Config.tConvMs
  exact ⟨c, d, s.draws + 1, m, by simp [triggerStep, hr, hd], hm⟩

/-- Steps 5 to 7 are traffic (R112 to R114). -/
theorem readoutSteps_after (s : State) :
    ∃ r0 r1 c d k, readoutSteps s = (stepSeven (rtdDec r0 r1).1 (rtdDec r0 r1).2,
      s.after d k (Memory.write s.mem Config.addrConfig.toNat (biasDisableByte c))
        [.rd Config.addrRtd [r0, r1], .rd Config.addrConfig [c],
         .wr Config.addrConfig [biasDisableByte c]]) := by
  obtain ⟨r0, r1, d, hr⟩ := readPair_after s Config.addrRtd
  obtain ⟨c, d', hc⟩ := readByte_after
    (s.after d (s.draws + 2) s.mem [.rd Config.addrRtd [r0, r1]]) Config.addrConfig
  exact ⟨r0, r1, c, d', s.draws + 3, by simp [readoutSteps, hr, hc, memWrite_after]⟩

/-- Step 4 and on: not finished, or the readout (R111). -/
theorem completionSteps_after (s : State) :
    ∃ c d k, (notFinished c = true ∧
        completionSteps s = (none, s.after d k s.mem [.rd Config.addrConfig [c]])) ∨
      (notFinished c = false ∧ ∃ r0 r1 c',
        completionSteps s = (stepSeven (rtdDec r0 r1).1 (rtdDec r0 r1).2,
          s.after d k (Memory.write s.mem Config.addrConfig.toNat (biasDisableByte c'))
            [.rd Config.addrConfig [c], .rd Config.addrRtd [r0, r1], .rd Config.addrConfig [c'],
             .wr Config.addrConfig [biasDisableByte c']])) := by
  obtain ⟨c, d, hc⟩ := readByte_after s Config.addrConfig
  cases h : notFinished c
  · obtain ⟨r0, r1, c', d', k, hr⟩ := readoutSteps_after
      (s.after d (s.draws + 1) s.mem [.rd Config.addrConfig [c]])
    exact ⟨c, d', k, .inr ⟨h, r0, r1, c', by simp [completionSteps, hc, h, hr]⟩⟩
  · exact ⟨c, d, s.draws + 1, .inl ⟨h, by simp [completionSteps, hc, h]⟩⟩

/-- The elements step 2 issues on an answered CONFIG byte (R105, R106). -/
def biasEvents (c : Byte) : List Event :=
  [.rd Config.addrConfig [c], .wr Config.addrConfig [biasEnableByte c], .dly Config.tBiasMs]

/-- The elements step 3 issues on an answered CONFIG byte (R108, R109). -/
def triggerEvents (c : Byte) : List Event :=
  [.rd Config.addrConfig [c], .wr Config.addrConfig [triggerByte c], .dly Config.tConvMs]

/-- The elements from step 4 on where the conversion is finished (R111 to R113). -/
def readoutEvents (c r0 r1 c' : Byte) : List Event :=
  [.rd Config.addrConfig [c], .rd Config.addrRtd [r0, r1], .rd Config.addrConfig [c'],
   .wr Config.addrConfig [biasDisableByte c']]

/-- How a sequence ends from a state on which step 4 runs: with no value, or with the readout. The first
state is where the elements and the register file of the earlier steps stand. -/
def endsFrom (s : State) (evs : List Event) (m : Memory) (r : Option S16 × State) : Prop :=
  (∃ c d k, notFinished c = true ∧
      r = (none, s.after d k m (evs ++ [.rd Config.addrConfig [c]]))) ∨
    ∃ c r0 r1 c' d k, notFinished c = false ∧
      r = (stepSeven (rtdDec r0 r1).1 (rtdDec r0 r1).2,
        s.after d k (Memory.write m Config.addrConfig.toNat (biasDisableByte c'))
          (evs ++ readoutEvents c r0 r1 c'))

theorem completionSteps_endsFrom (s : State) (d : Device) (k : Nat) (m : Memory) (evs : List Event) :
    endsFrom s evs m (completionSteps (s.after d k m evs)) := by
  obtain ⟨c, d', k', ⟨h, hc⟩ | ⟨h, r0, r1, c', hc⟩⟩ := completionSteps_after (s.after d k m evs)
  · exact .inl ⟨c, d', k', h, by rw [hc, after_after]; rfl⟩
  · exact .inr ⟨c, r0, r1, c', d', k', h, by rw [hc, after_after]; rfl⟩

/-- READ_RAW's sequence with step 4 in both modes, all it can do: nothing on an uninitialized instance; else
step 2, then step 3 in ONESHOT mode only, then step 4 and its two ends (R103 to R116). -/
theorem readRawSequence_cases (s : State) :
    (s.initialized = false ∧ readRawSequence true s = (none, s)) ∨
      (s.initialized = true ∧ ∃ c m,
        Memory.delayed (Memory.write s.mem Config.addrConfig.toNat (biasEnableByte c)) m ∧
        ((isOneshotMode (cfgDec c).convMode = false ∧
            endsFrom s (biasEvents c) m (readRawSequence true s)) ∨
          (isOneshotMode (cfgDec c).convMode = true ∧ ∃ c' m',
            Memory.delayed (Memory.write m Config.addrConfig.toNat (triggerByte c')) m' ∧
            endsFrom s (biasEvents c ++ triggerEvents c') m' (readRawSequence true s)))) := by
  cases hi : s.initialized
  · exact .inl ⟨rfl, by simp [readRawSequence, hi]⟩
  · obtain ⟨c, d, k, m, hb, hm⟩ := biasStep_after s
    change biasStep s = (_, s.after d k m (biasEvents c)) at hb
    refine .inr ⟨rfl, c, m, hm, ?_⟩
    cases hmode : isOneshotMode (cfgDec c).convMode
    · have hs : readRawSequence true s = completionSteps (s.after d k m (biasEvents c)) := by
        simp [readRawSequence, hi, hb, hmode]
      exact .inl ⟨rfl, hs ▸ completionSteps_endsFrom s d k m (biasEvents c)⟩
    · obtain ⟨c', d', k', m', ht, hm'⟩ := triggerStep_after (s.after d k m (biasEvents c))
      have hs : readRawSequence true s =
          completionSteps (s.after d' k' m' (biasEvents c ++ triggerEvents c')) := by
        simp [readRawSequence, hi, hb, hmode, ht, triggerEvents]
      exact .inr ⟨rfl, c', m', hm', hs ▸ completionSteps_endsFrom s d' k' m' _⟩

end Sys2Proof.Machine
end

