-- ==== Sys2Proof/Tests/Slice0.lean ====
section
/-! SUPPORT. Tests with expected values from the spec's worked examples and vectors (95_test_vectors.md), and
for each statement's hypotheses a state and operands that meet them. -/

namespace Sys2Proof.Tests

open Sys2Proof Sys2Proof.Machine

/-! ### Helpers -/

/-- The outcome is a next state of which `p` holds. -/
def nextHas (o : Host.Outcome State Fault Refusal) (p : State → Bool) : Bool :=
  match o with
  | .next t => p t
  | _ => false

/-- The result an operation returned from the state after reset. -/
def resultIs (i : Instr) (r : Result) : Bool :=
  nextHas (exec i State.reset) fun t =>
    t.outcome == some (.returned r) && t.trace == [] && t.initialized == false

/-- An initialized instance on a device that will answer the bytes given. -/
def initialized (answers : List Byte) : State :=
  { State.reset with initialized := true, device := .oracle answers }

/-- A READ_RAW on the answers given has this trace and this result. -/
def readGives (i : Instr) (answers : List Byte) (trace : List Event) (r : Result) : Bool :=
  nextHas (exec i (initialized answers)) fun t =>
    t.outcome == some (.returned r) && t.trace == trace && t.seq == .idle && t.device == .oracle []

/-- Position `p` of an initialized instance. -/
def atPos (p : SeqPos) : State := { initialized [] with seq := p }

/-- The host's next move. -/
def moves (ms : List HostMove) : State := { State.reset with inbox := ms }

/-! ### Well-formedness refuses, one term for each check -/

theorem test_wellFormed_accepts : (⟨0x10, [0xFFFF, 0, 1, 3, 1, 1, 1]⟩ : Command).wellFormed = true := by
  decide

/-- R76. -/
theorem test_wellFormed_refuses_reserved_selector :
    (⟨0x09, []⟩ : Command).wellFormed = false ∧ (⟨0x09, []⟩ : Command).selectorListed = false := by
  decide

/-- R77, R81: INIT with six operands. -/
theorem test_wellFormed_refuses_missing_field :
    (⟨0x10, [0, 0, 1, 3, 1, 1]⟩ : Command).wellFormed = false ∧
      (⟨0x10, [0, 0, 1, 3, 1, 1]⟩ : Command).fieldsComplete = false := by
  decide

/-- R77: `fault_detect = 4` cannot be written. -/
theorem test_wellFormed_refuses_value_outside_width :
    (⟨0x10, [0, 0, 1, 4, 1, 1, 1]⟩ : Command).wellFormed = false ∧
      (⟨0x10, [0, 0, 1, 4, 1, 1, 1]⟩ : Command).fieldsInWidth = false := by
  decide

/-! ### Decoding: each selector of R75, the operands from the programs of 95_test_vectors.md -/

/-- What a command decodes to, none where it is refused. -/
def decoded (c : Command) : Option Instr :=
  match decode c with
  | .ok i => some i
  | .error _ => none

/-- Program 4, commands 1 to 4. -/
theorem test_decode_codec_program4 :
    decoded ⟨0x01, [1, 0, 1, 1, 0b01, 0, 0]⟩ = some (.cfgEnc ⟨1, 0, 1, 1, 0b01, 0, 0⟩) ∧
    decoded ⟨0x02, [0xB4]⟩ = some (.cfgDec 0xB4) ∧
    decoded ⟨0x06, [0xFC, 0x18]⟩ = some (.thrDec 0xFC 0x18) ∧
    decoded ⟨0x04, [0x83, 0xE8]⟩ = some (.rtdDec 0x83 0xE8) ∧
    decoded ⟨0x09, []⟩ = none := by
  decide

/-- R75, the codec rows no program issues. -/
theorem test_decode_codec_rest :
    decoded ⟨0x03, [1000, 1]⟩ = some (.rtdEnc 1000 1) ∧
    decoded ⟨0x05, [0xFFFF]⟩ = some (.thrEnc (-1)) ∧
    decoded ⟨0x07, [0x84]⟩ = some (.fltEnc 0x84) ∧
    decoded ⟨0x08, [0x00]⟩ = some (.fltDec 0x00) := by
  decide

/-- Program 2, commands 1, 3 and 4; Program 1, command 3. -/
theorem test_decode_control :
    decoded ⟨0x10, [0xFF9C, 0x07D0, 0, 0b00, 0, 1, 0]⟩ =
      some (.init (-100) 2000 0 0b00 0 1 0) ∧
    decoded ⟨0x11, []⟩ = some .deinit ∧
    decoded ⟨0x12, []⟩ = some .readRaw ∧
    decoded ⟨0x13, []⟩ = some .readScaled := by
  decide

/-- A ratio needs 15 bits, a u1 one bit (R77): the next value is refused. -/
theorem test_decode_refuses_past_the_width :
    decoded ⟨0x03, [32767, 1]⟩ = some (.rtdEnc 32767 1) ∧ decoded ⟨0x03, [32768, 1]⟩ = none ∧
      decoded ⟨0x03, [0, 2]⟩ = none ∧ decoded ⟨0x12, [0]⟩ = none := by
  decide

/-- The table's rows as words: selector bits, operands of zeros. -/
theorem test_decodeTableWord :
    decodeTableWord 8 0x01 = some (.cfgEnc ⟨0, 0, 0, 0, 0, 0, 0⟩) ∧
    decodeTableWord 8 0x10 = some (.init 0 0 0 0 0 0 0) ∧
    decodeTableWord 8 0x13 = some .readScaled ∧
    decodeTableWord 8 0x14 = none ∧ decodeTableWord 8 0x00 = none := by
  decide

/-- A table row runs as the first instruction after reset. -/
theorem test_step_runs_the_fetched_word :
    nextHas (step (State.reset.withFetchWord 8 0x10)) (fun t =>
      t.trace == [.wr 0x00 [0x00], .wr 0x03 [0x00, 0x00], .wr 0x05 [0x00, 0x00]] &&
        t.initialized && t.inbox == []) = true := by
  decide

/-! ### The codec -/

/-- V-C2, V-C6, V-C12, V-C14. -/
theorem test_cfgEnc :
    resultIs (.cfgEnc ⟨1, 1, 1, 1, 3, 1, 1⟩) (.byte 0xFF) = true ∧
    resultIs (.cfgEnc ⟨0, 0, 0, 1, 0, 0, 0⟩) (.byte 0x10) = true ∧
    resultIs (.cfgEnc ⟨1, 1, 0, 1, 0, 0, 1⟩) (.byte 0xD1) = true ∧
    resultIs (.cfgEnc ⟨1, 0, 1, 1, 1, 0, 0⟩) (.byte 0xB4) = true := by
  decide

/-- V-C5, V-C8, V-C13, V-C14. -/
theorem test_cfgDec :
    resultIs (.cfgDec 0x20) (.config ⟨0, 0, 1, 0, 0, 0, 0⟩) = true ∧
    resultIs (.cfgDec 0x08) (.config ⟨0, 0, 0, 0, 2, 0, 0⟩) = true ∧
    resultIs (.cfgDec 0x2C) (.config ⟨0, 0, 1, 0, 3, 0, 0⟩) = true ∧
    resultIs (.cfgDec 0xB4) (.config ⟨1, 0, 1, 1, 1, 0, 0⟩) = true := by
  decide

/-- V-T1 to V-T8. -/
theorem test_config_transforms :
    ([0x00, 0x10, 0x56, 0x57, 0xFF, 0x2C, 0x90, 0xB0].map biasEnableByte =
      [0x80, 0x90, 0xD0, 0xD1, 0xD1, 0x80, 0x90, 0x90]) ∧
    ([0x00, 0x10, 0x56, 0x57, 0xFF, 0x2C, 0x90, 0xB0].map triggerByte =
      [0x20, 0x30, 0x76, 0x77, 0xFF, 0x2C, 0xB0, 0xB0]) ∧
    ([0x00, 0x10, 0x56, 0x57, 0xFF, 0x2C, 0x90, 0xB0].map biasDisableByte =
      [0x00, 0x10, 0x56, 0x57, 0x7F, 0x2C, 0x10, 0x30]) := by
  decide

/-- V-R2, V-R5, V-R7. -/
theorem test_rtdEnc :
    resultIs (.rtdEnc 1 0) (.byteSeq [0x00, 0x01]) = true ∧
    resultIs (.rtdEnc 32767 1) (.byteSeq [0xFF, 0xFF]) = true ∧
    resultIs (.rtdEnc 1000 1) (.byteSeq [0x83, 0xE8]) = true := by
  decide

/-- V-R3, V-R4, V-R9. -/
theorem test_rtdDec :
    resultIs (.rtdDec 0x7F 0xFF) (.rtd 32767 0) = true ∧
    resultIs (.rtdDec 0x80 0x00) (.rtd 0 1) = true ∧
    resultIs (.rtdDec 0x40 0x01) (.rtd 16385 0) = true := by
  decide

/-- V-H2, V-H4, V-H9. -/
theorem test_thrEnc :
    resultIs (.thrEnc 1000) (.byteSeq [0x03, 0xE8]) = true ∧
    resultIs (.thrEnc (-32768)) (.byteSeq [0x80, 0x00]) = true ∧
    resultIs (.thrEnc (-100)) (.byteSeq [0xFF, 0x9C]) = true := by
  decide

/-- V-H5, V-H6, V-H7. -/
theorem test_thrDec :
    resultIs (.thrDec 0x7F 0xFF) (.threshold 32767) = true ∧
    resultIs (.thrDec 0xFC 0x18) (.threshold (-1000)) = true ∧
    resultIs (.thrDec 0x01 0x00) (.threshold 256) = true := by
  decide

/-- V-F3. -/
theorem test_fltEnc : resultIs (.fltEnc 0x84) (.byteSeq [0x84]) = true := by decide

/-- V-F2. -/
theorem test_fltDec : resultIs (.fltDec 0xFF) (.byte 0xFF) = true := by decide

/-! ### INIT and DEINIT -/

/-- V-I2. -/
theorem test_init_auto :
    nextHas (exec (.init (-1000) 32767 (wiringCode .two) (faultDetectCode .auto)
      (faultClearCode .auto) (mainsFilterCode .hz50) (convModeCode .auto)) State.reset) (fun t =>
        t.trace == [.wr 0x00 [0x47], .wr 0x03 [0x7F, 0xFF], .wr 0x05 [0xFC, 0x18]] &&
        t.initialized && t.outcome == some (.returned .ok)) = true := by
  decide

/-- V-I4: `threshold_min > threshold_max`, on an initialized instance; and the register file after it. -/
theorem test_init_again :
    nextHas (exec (.init 500 100 (wiringCode .three) (faultDetectCode .none)
      (faultClearCode .manual) (mainsFilterCode .hz60) (convModeCode .oneshot)) (initialized []))
      (fun t =>
        t.trace == [.wr 0x00 [0x10], .wr 0x03 [0x00, 0x64], .wr 0x05 [0x01, 0xF4]] &&
        t.initialized &&
        t.mem == [(0, 0x10), (3, 0x00), (4, 0x64), (5, 0x01), (6, 0xF4)]) = true := by
  decide

/-- V-D1. -/
theorem test_deinit :
    nextHas (exec .deinit (initialized [])) (fun t =>
      t.trace == [] && t.initialized == false && t.outcome == some (.returned .ok)) = true := by
  decide

/-! ### READ_RAW and READ_SCALED -/

/-- V-RR2 (with V-RR10's last read: step 6 keeps bit 5 as read) and V-RR3. -/
theorem test_readRaw_oneshot :
    readGives .readRaw [0x10, 0x90, 0x90, 0x20, 0x00, 0xB0]
      [.rd 0x00 [0x10], .wr 0x00 [0x90], .dly 10, .rd 0x00 [0x90], .wr 0x00 [0xB0], .dly 50,
       .rd 0x00 [0x90], .rd 0x01 [0x20, 0x00], .rd 0x00 [0xB0], .wr 0x00 [0x30]]
      (.raw 8192) = true ∧
    readGives .readRaw [0x10, 0x90, 0xB0]
      [.rd 0x00 [0x10], .wr 0x00 [0x90], .dly 10, .rd 0x00 [0x90], .wr 0x00 [0xB0], .dly 50,
       .rd 0x00 [0xB0]] .noValue = true ∧
    readGives .readRaw [0x10, 0x90, 0x90, 0x83, 0xE8, 0x90]
      [.rd 0x00 [0x10], .wr 0x00 [0x90], .dly 10, .rd 0x00 [0x90], .wr 0x00 [0xB0], .dly 50,
       .rd 0x00 [0x90], .rd 0x01 [0x83, 0xE8], .rd 0x00 [0x90], .wr 0x00 [0x10]] .noValue = true := by
  decide

/-- V-RR6, V-RR7; and V-RR11, the reading of step 4 that is not the spec's. -/
theorem test_readRaw_auto :
    readGives .readRaw [0x50, 0xF0]
      [.rd 0x00 [0x50], .wr 0x00 [0xD0], .dly 10, .rd 0x00 [0xF0]] .noValue = true ∧
    readGives .readRaw [0xFF, 0xD1, 0x00, 0x00, 0xD1]
      [.rd 0x00 [0xFF], .wr 0x00 [0xD1], .dly 10, .rd 0x00 [0xD1], .rd 0x01 [0x00, 0x00],
       .rd 0x00 [0xD1], .wr 0x00 [0x51]] (.raw 0) = true ∧
    ((readRawSequence false (initialized [0x50, 0x7F, 0xFF, 0xD0])).1 = some 32767 ∧
      (readRawSequence false (initialized [0x50, 0x7F, 0xFF, 0xD0])).2.trace =
        [.rd 0x00 [0x50], .wr 0x00 [0xD0], .dly 10, .rd 0x01 [0x7F, 0xFF], .rd 0x00 [0xD0],
         .wr 0x00 [0x50]]) := by
  decide

/-- V-S1, V-S3 and V-S4. -/
theorem test_readScaled :
    readGives .readScaled [0x50, 0xD0, 0x7F, 0xFF, 0xD0]
      [.rd 0x00 [0x50], .wr 0x00 [0xD0], .dly 10, .rd 0x00 [0xD0], .rd 0x01 [0x7F, 0xFF],
       .rd 0x00 [0xD0], .wr 0x00 [0x50]] (.scaled 0x46FFFE00) = true ∧
    toBinary32 8192 = 0x46000000 ∧ toBinary32 0 = 0x00000000 := by
  decide

/-- V-S2: an uninitialized instance. -/
theorem test_readScaled_uninitialized : resultIs .readScaled .noValue = true := by decide

/-- The same sequence position by position, one step: S_BIAS_WR writes, S_SETTLE goes on by the mode. -/
theorem test_sequencer_positions :
    nextHas (step { atPos .biasWr with cWork := some 0x56, modeL := some 1 }) (fun t =>
      t.seq == .settle && t.trace == [.wr 0x00 [0xD0]]) = true ∧
    nextHas (step { atPos .settle with modeL := some 1 }) (fun t =>
      t.seq == .doneRd && t.trace == [.dly 10]) = true ∧
    nextHas (step { atPos .settle with modeL := some 0 }) (fun t => t.seq == .trigRd) = true := by
  decide

/-- R114 and the last rows of R115: a set fault flag returns NONE without a ratio, a clear one the ratio. -/
theorem test_sequencer_result :
    nextHas (step { atPos .result with rtdFault := some 1 }) (fun t =>
      t.seq == .idle && t.outcome == some (.returned .noValue)) = true ∧
    nextHas (step { atPos .result with rtdFault := some 0, rtdRatio := some 8192 }) (fun t =>
      t.seq == .idle && t.outcome == some (.returned (.raw 8192))) = true := by
  decide

/-! ### Refusals -/

/-- V-X1. -/
theorem test_reserved_selector :
    nextHas (step (moves [.call ⟨0x09, []⟩])) (fun t =>
      t.refused && t.trace == [] && t.outcome == some (.refused .reservedSelector)) = true := by
  decide

/-- V-X2. -/
theorem test_concurrent_call :
    nextHas (step { atPos .settle with modeL := some 0, inbox := [.issue ⟨0x12, []⟩] }) (fun t =>
      t.refused && t.seq == .settle && t.outcome == some (.refused .concurrentCall)) = true := by
  decide

/-- V-X3. -/
theorem test_moved_from :
    nextHas (exec .readRaw { State.reset with live := false }) (fun t =>
      t.refused && t.outcome == some (.refused .movedFrom)) = true := by
  decide

/-! ### RefDev: Program 3's first reading, from the state after its INIT -/

/-- Program 3, command 2. -/
theorem test_refDev_fault :
    nextHas (exec .readRaw { initialized [] with
      device := .refDev true (0x83, 0xE8)
      mem := [(0, 0x56), (1, 0), (2, 0), (3, 3), (4, 0xE8), (5, 0), (6, 0), (7, 0)] }) (fun t =>
        t.outcome == some (.returned .noValue) && t.byteAt 0 == some 0x50 &&
        t.trace == [.rd 0x00 [0x56], .wr 0x00 [0xD0], .dly 10, .rd 0x00 [0xD0],
          .rd 0x01 [0x83, 0xE8], .rd 0x00 [0xD0], .wr 0x00 [0x50]]) = true := by
  decide

/-- Program 1, command 2: RefDev clears `oneshot` on the conversion delay. -/
theorem test_refDev_oneshot :
    nextHas (exec .readRaw { initialized [] with
      device := .refDev true (0x20, 0x00)
      mem := [(0, 0x10), (1, 0), (2, 0), (3, 3), (4, 0xE8), (5, 0), (6, 0), (7, 0)] }) (fun t =>
        t.outcome == some (.returned (.raw 8192)) && t.byteAt 0 == some 0x10 &&
        t.trace.length == 10) = true := by
  decide

/-! ### The textual syntax (R81's examples) -/

/-- The command a line assembles to, none where it is refused or holds no command. -/
def assembled (line : String) : Option Command :=
  match Assembler.assemble line.toList with
  | .ok c => c
  | .error _ => none

theorem test_assemble_codec :
    assembled "THR_ENC t=-1" = some ⟨0x05, [0xFFFF]⟩ ∧
    assembled "RTD_DEC bytes=[0x83, 0xE8]" = some ⟨0x04, [0x83, 0xE8]⟩ ∧
    assembled "READ_RAW ; one reading" = some ⟨0x12, []⟩ := by
  decide

/-- A missing operand is a syntax error; a value outside its width is refused. -/
theorem test_assemble_refuses :
    assembled "RTD_ENC ratio=1" = none ∧ assembled "RTD_ENC ratio=32768, fault=0" = none ∧
      assembled "THR_ENC t=32768" = none := by
  decide

/-- The model's choice (log 21): an element of a byte list may be decimal. -/
theorem test_assemble_decimal_element :
    assembled "RTD_DEC bytes=[131, 0xE8]" = some ⟨0x04, [0x83, 0xE8]⟩ := by
  decide

/-- R81's first example, its operands in another order. -/
theorem test_assemble_init :
    assembled "INIT threshold_max=1000, threshold_min=0, nwires=THREE, fault_detect=FD_NONE, fault_clear=FC_MANUAL, filter=HZ60, conv_mode=ONESHOT"
      = some ⟨0x10, [0, 1000, 1, 0, 0, 0, 0]⟩ := by
  decide +kernel

/-! ### Witnesses: a state and operands for the hypotheses of each statement -/

theorem ready_reset : State.reset.Ready := ⟨rfl, rfl, rfl, rfl⟩

theorem ready_initialized (answers : List Byte) : (initialized answers).Ready := ⟨rfl, rfl, rfl, rfl⟩

theorem witness_CfgEncPacksFieldsMsbFirst : ∃ s : State, s.Ready := ⟨_, ready_reset⟩
theorem witness_CfgDecUnpacksEveryByte : ∃ s : State, s.Ready := ⟨_, ready_initialized []⟩
theorem witness_RtdEncPutsFaultAboveRatio : ∃ s : State, s.Ready := ⟨_, ready_reset⟩
theorem witness_RtdDecReadsFaultAndRatio : ∃ s : State, s.Ready := ⟨_, ready_reset⟩
theorem witness_ThresholdsAreBigEndianTwosComplement : ∃ s : State, s.Ready := ⟨_, ready_reset⟩
theorem witness_FaultStatusIsCarriedUnchanged : ∃ s : State, s.Ready := ⟨_, ready_reset⟩
theorem witness_CodecRoundTrips : ∃ s : State, s.Ready := ⟨_, ready_reset⟩
theorem witness_InitWritesThreeRegistersInOrder : ∃ s : State, s.Ready := ⟨_, ready_reset⟩

/-- At the greatest address of the map, which INIT does not store to. -/
theorem witness_InitStoresNowhereElse : ∃ (s t : State) (a : Nat),
    exec (.init 0 1000 1 0 0 0 0) s = .next t ∧ a = 7 ∧ a ≠ Config.addrConfig.toNat ∧
      a ≠ Config.addrHighFault.toNat ∧ a ≠ Config.addrHighFault.toNat + 1 ∧
      a ≠ Config.addrLowFault.toNat ∧ a ≠ Config.addrLowFault.toNat + 1 :=
  ⟨State.reset, _, 7, rfl, by decide⟩

theorem witness_InitConfigAndThresholdsAndOk : ∃ s t : State,
    s.Ready ∧ exec (.init 0 1000 1 0 0 0 0) s = .next t := ⟨State.reset, _, ready_reset, rfl⟩
theorem witness_DeinitClearsTheFlagAndNothingElse : ∃ s : State, s.Ready := ⟨_, ready_initialized []⟩

theorem witness_DeinitAndDestructionLeaveTheDevice :
    (∃ s t : State, s.Ready ∧ exec .deinit s = .next t) ∧
    (∃ s t : State, hostMove .destroy s = .next t) :=
  ⟨⟨State.reset, _, ready_reset, rfl⟩, ⟨State.reset, _, rfl⟩⟩

theorem witness_ReadRawUninitializedReturnsNone : ∃ s : State, s.Ready ∧ s.initialized = false :=
  ⟨_, ready_reset, rfl⟩

theorem witness_ReadRawTakesOneOfFivePaths : ∃ s : State, s.Ready := ⟨_, ready_initialized []⟩

/-- V-RR2's answers. -/
theorem witness_ReadRawOneshotFinished :
    ∃ (s : State) (c0 c1 c2 c3 r0 r1 : Byte) (rest : List Byte), s.Ready ∧ s.initialized = true ∧
      s.device = .oracle (c0 :: c1 :: c2 :: r0 :: r1 :: c3 :: rest) ∧
      c0.getLsbD 6 = false ∧ c2.getLsbD 5 = false :=
  ⟨initialized [0x10, 0x90, 0x90, 0x20, 0x00, 0x90], 0x10, 0x90, 0x90, 0x90, 0x20, 0x00, [],
    ready_initialized _, rfl, rfl, rfl, rfl⟩

/-- V-RR3's answers. -/
theorem witness_ReadRawOneshotNotFinished :
    ∃ (s : State) (c0 c1 c2 : Byte) (rest : List Byte), s.Ready ∧ s.initialized = true ∧
      s.device = .oracle (c0 :: c1 :: c2 :: rest) ∧ c0.getLsbD 6 = false ∧ c2.getLsbD 5 = true :=
  ⟨initialized [0x10, 0x90, 0xB0], 0x10, 0x90, 0xB0, [], ready_initialized _, rfl, rfl, rfl, rfl⟩

/-- V-RR6's and V-RR5's answers. -/
theorem witness_ReadRawAutoPaths :
    (∃ (s : State) (c0 c2 : Byte) (rest : List Byte), s.Ready ∧ s.initialized = true ∧
      s.device = .oracle (c0 :: c2 :: rest) ∧ c0.getLsbD 6 = true ∧ c2.getLsbD 5 = true) ∧
    (∃ (s : State) (c0 c2 c3 r0 r1 : Byte) (rest rest' : List Byte), s.Ready ∧
      s.initialized = true ∧ s.device = .oracle (c0 :: c2 :: rest) ∧ c0.getLsbD 6 = true ∧
      c2.getLsbD 5 = false ∧ rest = r0 :: r1 :: c3 :: rest') :=
  ⟨⟨initialized [0x50, 0xF0], 0x50, 0xF0, [], ready_initialized _, rfl, rfl, rfl, rfl⟩,
    ⟨initialized [0x50, 0xD0, 0x7F, 0xFF, 0xD0], 0x50, 0xD0, 0xD0, 0x7F, 0xFF, _, [],
      ready_initialized _, rfl, rfl, rfl, rfl, rfl⟩⟩

theorem witness_ReadsKeepBlockStateAndOtherRegisters :
    (∃ s t : State, s.Ready ∧ exec .readRaw s = .next t) ∧
    (∃ s t : State, s.Ready ∧ exec .readScaled s = .next t) :=
  ⟨⟨initialized [], _, ready_initialized _, rfl⟩, ⟨initialized [], _, ready_initialized _, rfl⟩⟩

theorem witness_BiasWriteIsFollowedAtOnceBySettling : ∃ s : State, s.Ready ∧ s.initialized = true :=
  ⟨initialized [], ready_initialized _, rfl⟩

/-- V-RR5's first answer. -/
theorem witness_AutoModeOmitsTriggerAndConversionDelay : ∃ (s t : State) (c0 : Byte),
    s.Ready ∧ s.initialized = true ∧ (readByte s Config.addrConfig).1 = c0 ∧
      (cfgDec c0).convMode = convModeCode .auto ∧ exec .readRaw s = .next t :=
  ⟨initialized [0x50, 0xF0], _, 0x50, ready_initialized _, rfl, rfl, by decide, rfl⟩

/-- V-RR4's answers for the fault, V-RR2's for the reading. -/
theorem witness_FaultFlagDecidesTheResult :
    (∃ (s t : State) (pre post : List Event) (r0 r1 : Byte), s.Ready ∧ s.initialized = true ∧
      exec .readRaw s = .next t ∧
      t.trace = s.trace ++ (pre ++ .rd Config.addrRtd [r0, r1] :: post) ∧ (rtdDec r0 r1).2 = 1) ∧
    (∃ (s t : State) (pre post : List Event) (r0 r1 : Byte), s.Ready ∧ s.initialized = true ∧
      exec .readRaw s = .next t ∧
      t.trace = s.trace ++ (pre ++ .rd Config.addrRtd [r0, r1] :: post) ∧ (rtdDec r0 r1).2 = 0) :=
  ⟨⟨initialized [0x50, 0xD0, 0x83, 0xE8, 0xD0], _,
      [.rd 0x00 [0x50], .wr 0x00 [0xD0], .dly 10, .rd 0x00 [0xD0]],
      [.rd 0x00 [0xD0], .wr 0x00 [0x50]], 0x83, 0xE8, ready_initialized _, rfl, rfl, by decide,
      by decide⟩,
    ⟨initialized [0x50, 0xD0, 0x7F, 0xFF, 0xD0], _,
      [.rd 0x00 [0x50], .wr 0x00 [0xD0], .dly 10, .rd 0x00 [0xD0]],
      [.rd 0x00 [0xD0], .wr 0x00 [0x50]], 0x7F, 0xFF, ready_initialized _, rfl, rfl, by decide,
      by decide⟩⟩

/-- V-RR5's, V-RR6's and V-RR3's answers. -/
theorem witness_BiasAfterEachPath :
    (∃ (s t : State) (pre post : List Event) (r0 r1 : Byte), s.Ready ∧ s.initialized = true ∧
      exec .readRaw s = .next t ∧
      t.trace = s.trace ++ (pre ++ .rd Config.addrRtd [r0, r1] :: post)) ∧
    (∃ (s t : State) (c0 w c2 : Byte), s.Ready ∧ s.initialized = true ∧
      exec .readRaw s = .next t ∧
      t.trace = s.trace ++ [.rd Config.addrConfig [c0], .wr Config.addrConfig [w],
        .dly Config.tBiasMs, .rd Config.addrConfig [c2]]) ∧
    (∃ (s t : State) (c0 w c1 w' c2 : Byte), s.Ready ∧ s.initialized = true ∧
      exec .readRaw s = .next t ∧
      t.trace = s.trace ++ [.rd Config.addrConfig [c0], .wr Config.addrConfig [w],
        .dly Config.tBiasMs, .rd Config.addrConfig [c1], .wr Config.addrConfig [w'],
        .dly Config.tConvMs, .rd Config.addrConfig [c2]]) :=
  ⟨⟨initialized [0x50, 0xD0, 0x7F, 0xFF, 0xD0], _,
      [.rd 0x00 [0x50], .wr 0x00 [0xD0], .dly 10, .rd 0x00 [0xD0]],
      [.rd 0x00 [0xD0], .wr 0x00 [0x50]], 0x7F, 0xFF, ready_initialized _, rfl, rfl, by decide⟩,
    ⟨initialized [0x50, 0xF0], _, 0x50, 0xD0, 0xF0, ready_initialized _, rfl, rfl, by decide⟩,
    ⟨initialized [0x10, 0x90, 0xB0], _, 0x10, 0x90, 0x90, 0xB0, 0xB0, ready_initialized _, rfl,
      rfl, by decide⟩⟩

theorem witness_EachReadSettlesItsBias :
    (∃ s t : State, s.Ready ∧ exec .readRaw s = .next t) ∧
    (∃ s t : State, s.Ready ∧ exec .readScaled s = .next t) :=
  witness_ReadsKeepBlockStateAndOtherRegisters

/-- W3, V-RR6's answers and V-RR4's bytes, one for each cause. -/
theorem witness_TraceTellsTheCauseOfNone :
    ∀ s ∈ [State.reset, initialized [0x50, 0xF0], initialized [0x50, 0xD0, 0x83, 0xE8, 0xD0]],
      s.Ready ∧
        nextHas (exec .readRaw s) (fun t => t.outcome == some (.returned .noValue)) = true := by
  intro s hs
  simp only [List.mem_cons, List.not_mem_nil, or_false] at hs
  rcases hs with rfl | rfl | rfl <;> exact ⟨⟨rfl, rfl, rfl, rfl⟩, by decide⟩

theorem witness_ReadScaledIsReadRawConverted : ∃ s : State, s.Ready := ⟨_, ready_initialized []⟩

theorem witness_SequencerRunIsTheWholeRead : ∃ s : State, s.Ready ∧ s.inbox = [] :=
  ⟨initialized [], ready_initialized _, rfl⟩

theorem witness_SequencerReadPositions :
    ∀ p ∈ [SeqPos.biasRd, .trigRd, .doneRd, .rtdRd, .unbiasRd], ∃ s : State,
      s.refused = false ∧ s.inbox = [] ∧ s.seq = p :=
  fun p _ => ⟨atPos p, rfl, rfl, rfl⟩

theorem witness_SequencerOtherPositions :
    (∀ p ∈ [SeqPos.idle, .conv], ∃ s : State, s.refused = false ∧ s.inbox = [] ∧ s.seq = p) ∧
    (∀ b : Bool, ∃ s : State, s.refused = false ∧ s.inbox = [] ∧ s.seq = .check ∧
      s.initialized = b) ∧
    (∀ p ∈ [SeqPos.biasWr, .trigWr, .unbiasWr], ∃ (s : State) (b : Byte), s.refused = false ∧
      s.inbox = [] ∧ s.seq = p ∧ s.cWork = some b) ∧
    (∀ m : Bit, ∃ s : State, s.refused = false ∧ s.inbox = [] ∧ s.seq = .settle ∧
      s.modeL = some m) ∧
    (∀ (ratio : Ratio) (fault : Bit) (sc : Bool), ∃ s : State, s.refused = false ∧ s.inbox = [] ∧
      s.seq = .result ∧ s.rtdRatio = some ratio ∧ s.rtdFault = some fault ∧ s.scaled = sc) ∧
    (∃ s : State, s.refused = false ∧ s.inbox = [] ∧ s.seq = .result ∧ s.rtdFault = some 1 ∧
      s.rtdRatio = none) :=
  ⟨fun p _ => ⟨atPos p, rfl, rfl, rfl⟩,
    fun b => ⟨{ atPos .check with initialized := b }, rfl, rfl, rfl, rfl⟩,
    fun p _ => ⟨{ atPos p with cWork := some 0xFF }, 0xFF, rfl, rfl, rfl, rfl⟩,
    fun m => ⟨{ atPos .settle with modeL := some m }, rfl, rfl, rfl, rfl⟩,
    fun ratio fault sc => ⟨{ atPos .result with
      rtdRatio := some ratio, rtdFault := some fault, scaled := sc }, rfl, rfl, rfl, rfl, rfl, rfl⟩,
    ⟨{ atPos .result with rtdFault := some 1 }, rfl, rfl, rfl, rfl, rfl⟩⟩

theorem witness_CommandsToUnreadyInstancesAreRefused :
    (∃ s : State, s.destroyed = false ∧ s.refused = false ∧ s.live = false) ∧
    (∃ s : State, s.destroyed = false ∧ s.refused = false ∧ s.live = true ∧ s.seq ≠ .idle) :=
  ⟨⟨{ State.reset with live := false }, rfl, rfl, rfl⟩, ⟨atPos .settle, rfl, rfl, rfl, by decide⟩⟩

/-- A reserved selector at each end of a reserved range (R76), and a value one past its width. -/
theorem witness_IllFormedCommandsAreRefused :
    ∀ c ∈ [(⟨0x00, []⟩ : Command), ⟨0x0F, []⟩, ⟨0x14, []⟩, ⟨0xFF, []⟩, ⟨0x03, [32768, 0]⟩],
      ∀ m ∈ [HostMove.call c, .issue c],
        (moves [m]).destroyed = false ∧ (moves [m]).refused = false ∧ c.wellFormed = false := by
  decide

theorem witness_RefusedInstancesStayRefused : ∃ s : State, s.refused = true ∧ s.destroyed = false :=
  ⟨{ State.reset with refused := true }, rfl, rfl⟩

theorem witness_MovingDestroyingAndCreating :
    (∃ s : State, s.refused = false ∧ s.inbox = [.moveAway] ∧ s.destroyed = false ∧ s.seq = .idle) ∧
    (∃ s : State, s.refused = false ∧ s.inbox = [.destroy] ∧ s.destroyed = false ∧ s.seq = .idle) ∧
    (∃ s : State, s.refused = false ∧ s.inbox = [.destroy] ∧ s.destroyed = false ∧ s.seq ≠ .idle) ∧
    (∃ s : State, s.refused = false ∧ s.inbox = [.create] ∧ s.destroyed = true ∧ s.live = true) :=
  ⟨⟨moves [.moveAway], rfl, rfl, rfl, rfl⟩, ⟨moves [.destroy], rfl, rfl, rfl, rfl⟩,
    ⟨{ atPos .conv with inbox := [.destroy] }, rfl, rfl, rfl, by decide⟩,
    ⟨{ moves [.create] with destroyed := true }, rfl, rfl, rfl, rfl⟩⟩

theorem witness_OperationsReturnAndOnlyReadsReturnNone : ∃ s : State, s.Ready := ⟨_, ready_reset⟩

theorem witness_OnlyInitAndDeinitChangeInitialized : ∃ s t : State, exec .deinit s = .next t :=
  ⟨initialized [], _, rfl⟩

theorem witness_NoTransactionOutsideInitAndReads : ∃ (i : Instr) (s t : State), i.opcode ≠ .init ∧
    i ≠ .readRaw ∧ i ≠ .readScaled ∧ i ≠ .deinit ∧ s.Ready ∧ exec i s = .next t :=
  ⟨.cfgDec 0xB4, State.reset, _, by decide, by decide, by decide, by decide, ready_reset, rfl⟩

theorem witness_OperationsAppendAtMostTenLegalElements : ∃ s t : State, exec .readRaw s = .next t :=
  ⟨initialized [], _, rfl⟩

theorem witness_StepRunsTheDecodedCommand :
    (∃ (c : Command) (i : Instr) (s : State), s.refused = false ∧ s.inbox = [.call c] ∧
      decode c = .ok i) ∧
    (∃ (w : Nat) (i : Instr) (s : State), s.refused = false ∧ decodeTableWord 8 w = some i) :=
  ⟨⟨⟨0x13, []⟩, .readScaled, moves [.call ⟨0x13, []⟩], rfl, rfl, rfl⟩,
    ⟨0x13, .readScaled, State.reset, rfl, by decide⟩⟩

theorem witness_IssuedCommandsStartOrRun :
    ∀ x ∈ [((⟨0x11, []⟩ : Command), Instr.deinit), (⟨0x12, []⟩, .readRaw), (⟨0x13, []⟩, .readScaled)],
      decoded x.1 = some x.2 ∧ (moves [.issue x.1]).refused = false ∧ (moves [.issue x.1]).Ready := by
  intro x hx
  simp only [List.mem_cons, List.not_mem_nil, or_false] at hx
  rcases hx with rfl | rfl | rfl <;> exact ⟨by decide, rfl, rfl, rfl, rfl, rfl⟩

/-- V-X3 and V-X2: a read issued to a moved-from and to a busy instance. -/
theorem witness_IssuedCommandsStartOrRun_refused :
    ∀ x ∈ [((⟨0x12, []⟩ : Command), Instr.readRaw), (⟨0x13, []⟩, .readScaled)],
      decoded x.1 = some x.2 ∧
      (∃ s : State, s.refused = false ∧ s.inbox = [.issue x.1] ∧ s.destroyed = false ∧
        s.live = false) ∧
      (∃ s : State, s.refused = false ∧ s.inbox = [.issue x.1] ∧ s.destroyed = false ∧
        s.live = true ∧ s.seq ≠ .idle) := by
  intro x hx
  simp only [List.mem_cons, List.not_mem_nil, or_false] at hx
  rcases hx with rfl | rfl <;>
    exact ⟨by decide, ⟨{ moves [.issue _] with live := false }, rfl, rfl, rfl, rfl⟩,
      ⟨{ moves [.issue _] with seq := .settle }, rfl, rfl, rfl, rfl, by decide⟩⟩

theorem witness_StepKeepsTheInvariant : ∃ s t : State, s.Inv ∧ step s = .next t :=
  ⟨moves [.call ⟨0x12, []⟩], _, ⟨rfl, rfl, rfl, rfl, rfl, rfl, rfl, rfl⟩, rfl⟩

theorem witness_StepKeepsBiasSettledBeforeRtdReads : ∃ s t : State, s.BiasInv ∧ step s = .next t :=
  ⟨moves [.call ⟨0x12, []⟩], _, ⟨rfl, fun h => h.elim (nomatch ·) (nomatch ·)⟩, rfl⟩

theorem witness_WorkingRegistersAreNeverReadUnwritten :
    (∃ s : State, s.Inv) ∧
    (∀ p ∈ [SeqPos.biasWr, .trigWr, .unbiasWr, .settle, .result], ∃ s : State,
      s.refused = false ∧ s.inbox = [] ∧ s.cWork = none ∧ s.modeL = none ∧ s.rtdFault = none ∧
        s.seq = p) ∧
    (∀ fault : Bit, ∃ s : State, s.refused = false ∧ s.inbox = [] ∧ s.rtdFault = some fault ∧
      s.rtdRatio = none ∧ s.seq = .result) :=
  ⟨⟨State.reset, rfl, rfl, rfl, rfl, rfl, rfl, rfl, rfl⟩,
    fun p _ => ⟨atPos p, rfl, rfl, rfl, rfl, rfl, rfl⟩,
    fun fault => ⟨{ atPos .result with rtdFault := some fault }, rfl, rfl, rfl, rfl, rfl⟩⟩

theorem witness_DecodeAcceptsExactlyWellFormedCommands :
    (∃ (c : Command) (i : Instr), decode c = .ok i) ∧ (∃ c : Command, c.selectorListed = false) :=
  ⟨⟨⟨0x12, []⟩, .readRaw, rfl⟩, ⟨⟨0x09, []⟩, by decide⟩⟩

theorem witness_TwoAndFourWiresAreOneValue : ∃ s : State, s.Ready := ⟨_, ready_reset⟩

theorem witness_RefDevOneshotReading :
    ∃ s : State, s.Ready ∧ s.device = .refDev true (0x20, 0x00) :=
  ⟨{ State.reset with device := .refDev true (0x20, 0x00) }, ⟨rfl, rfl, rfl, rfl⟩, rfl⟩

theorem witness_RefDevUnfinishedConversionLeavesBias :
    ∃ s : State, s.Ready ∧ s.device = .refDev false (0x12, 0x34) :=
  ⟨{ State.reset with device := .refDev false (0x12, 0x34) }, ⟨rfl, rfl, rfl, rfl⟩, rfl⟩

theorem witness_FieldCodesReachConfig : ∃ s : State, s.Ready := ⟨_, ready_reset⟩

theorem witness_OpenHostMovesStop :
    (∃ s : State, s.refused = false ∧ s.inbox = [.moveAway] ∧ s.destroyed = false ∧ s.seq ≠ .idle) ∧
    (∀ m ∈ [HostMove.moveAway, .destroy, .call ⟨0x12, []⟩, .issue ⟨0x12, []⟩], ∃ s : State,
      s.refused = false ∧ s.inbox = [m] ∧ s.destroyed = true) ∧
    (∃ s : State, s.refused = false ∧ s.inbox = [.create] ∧ s.destroyed = false) ∧
    (∃ s : State, s.refused = false ∧ s.inbox = [.create] ∧ s.live = false) :=
  ⟨⟨{ atPos .conv with inbox := [.moveAway] }, rfl, rfl, rfl, by decide⟩,
    fun m _ => ⟨{ moves [m] with destroyed := true }, rfl, rfl, rfl⟩,
    ⟨moves [.create], rfl, rfl, rfl⟩,
    ⟨{ moves [.create] with live := false }, rfl, rfl, rfl⟩⟩

end Sys2Proof.Tests
end

/-! PROOFS. The statements of 10_state.md: what DEINIT and destruction leave unchanged. -/

namespace Sys2Proof.Machine

/-- A ready DEINIT clears `initialized` and returns OK (R102). -/
theorem exec_deinit_ready {s : State} (h : s.Ready) :
    exec .deinit s = .next { s.endsWith .ok with initialized := false } :=
  exec_ready h .deinit

/-- Where destruction answers a next state, an idle instance is destroyed (R143), or one in flight is refused
with the mark (R126 b). -/
theorem destroyInstance_next {s t : State} (h : destroyInstance s = .next t) :
    s.destroyed = false ∧
      ((s.seq = .idle ∧ t = { s with destroyed := true }) ∨
        (s.seq ≠ .idle ∧ t = refuse .destroyedInFlight s)) := by
  unfold destroyInstance at h
  split at h
  case isTrue => cases h
  case isFalse hd =>
    refine ⟨by simpa using hd, ?_⟩
    split at h
    case isTrue busy => cases h; exact .inr ⟨busy, rfl⟩
    case isFalse idle => cases h; exact .inl ⟨not_not.1 idle, rfl⟩

/-- Destroying an instance, idle or in flight, leaves the device's registers, the device and the trace (R37). -/
theorem destroyInstance_keeps_device {s t : State} (h : destroyInstance s = .next t) :
    t.mem = s.mem ∧ t.device = s.device ∧ t.trace = s.trace := by
  obtain ⟨-, ⟨-, rfl⟩ | ⟨-, rfl⟩⟩ := destroyInstance_next h
  · exact ⟨rfl, rfl, rfl⟩
  · simp

/-- Settles O13: DEINIT's next state is the one of R102, and a destruction that answers a next state only sets
`destroyed` or the refusal's mark. -/
theorem deinitAndDestructionLeaveTheDevice : Obligations.DeinitAndDestructionLeaveTheDevice := by
  refine ⟨fun s t ready h => ?_, fun s t h => destroyInstance_keeps_device h⟩
  obtain rfl : _ = t := Host.Outcome.next.inj ((exec_deinit_ready ready).symm.trans h)
  exact ⟨rfl, rfl, rfl, rfl⟩

end Sys2Proof.Machine

/-! PROOFS. The statements of 30_encoding.md: the RTD pair and the thresholds as bytes, and what READ_RAW
makes of the pair it reads. -/

namespace Sys2Proof.Machine

/-! ### Byte pairs -/

/-- A pair joins to its bytes side by side, the byte of the lower address above (R47). -/
theorem joinBytes_eq_append (b0 b1 : Byte) : joinBytes b0 b1 = (b0 ++ b1 : BitVec 16) := by
  have h := BitVec.setWidth_append_eq_shiftLeft_setWidth_or (b := b0) (b' := b1) (w'' := 16)
  rw [BitVec.setWidth_eq] at h
  exact h.symm

/-- The number of a pair is big-endian (R47). -/
theorem joinBytes_toNat (b0 b1 : Byte) : (joinBytes b0 b1).toNat = b0.toNat * 256 + b1.toNat := by
  rw [joinBytes_eq_append, BitVec.toNat_append, ← Nat.shiftLeft_add_eq_or_of_lt b1.isLt,
    Nat.shiftLeft_eq]

/-- The two bytes of a 16-bit value join to it again (R47). -/
theorem joinBytes_highByte_lowByte (w : U16) : joinBytes (highByte w) (lowByte w) = w := by
  rw [joinBytes_eq_append]
  exact BitVec.extractLsb'_append_extractLsb' (w := 8) (len := 8)

/-! ### RTD_DEC -/

/-- The fault flag is bit 7 of RTD_H (R62). -/
theorem rtdDec_fault_eq (b0 b1 : Byte) : (rtdDec b0 b1).2 = b0.extractLsb' 7 1 := by
  rw [rtdDec, joinBytes_eq_append]
  exact BitVec.extractLsb'_append_eq_of_le (by decide)

/-- The ratio is bits 6:0 of RTD_H above RTD_L (R62). -/
theorem rtdDec_ratio_eq (b0 b1 : Byte) : (rtdDec b0 b1).1 = b0.extractLsb' 0 7 ++ b1 := by
  rw [rtdDec, joinBytes_eq_append]
  exact BitVec.extractLsb'_append_eq_ite.trans (by simp)

/-- The fault flag is `w[15]` as a number (R62). -/
theorem rtdDec_fault_toNat (b0 b1 : Byte) :
    (rtdDec b0 b1).2.toNat = (b0.toNat * 256 + b1.toNat) / 2 ^ 15 := by
  have hw : b0.toNat * 256 + b1.toNat < 2 ^ 16 := joinBytes_toNat b0 b1 ▸ (joinBytes b0 b1).isLt
  simp only [rtdDec, BitVec.extractLsb'_toNat, joinBytes_toNat, Nat.shiftRight_eq_div_pow]
  omega

/-- The ratio is `w[14:0]` as a number (R62). -/
theorem rtdDec_ratio_toNat (b0 b1 : Byte) :
    (rtdDec b0 b1).1.toNat = (b0.toNat * 256 + b1.toNat) % 2 ^ 15 := by
  simp [rtdDec, joinBytes_toNat]

/-- The result of a ratio is the ratio below a 0 bit (R72). -/
theorem ratioResult_eq_append (ratio : Ratio) : ratioResult ratio = (0#1 ++ ratio : BitVec 16) :=
  BitVec.setWidth_eq_append (by decide)

/-- Settles O4: the pair joins to its bytes side by side, so each field is an extract of an append. -/
theorem rtdDecReadsFaultAndRatio : Obligations.RtdDecReadsFaultAndRatio :=
  ⟨fun b0 b1 _ ready => ⟨(rtdDec b0 b1).1, (rtdDec b0 b1).2, exec_ready ready (.rtdDec b0 b1),
      rtdDec_fault_toNat b0 b1, rtdDec_ratio_toNat b0 b1, rtdDec_fault_eq b0 b1,
      rtdDec_ratio_eq b0 b1⟩,
    ratioResult_eq_append⟩

/-! ### Thresholds -/

/-- THR_ENC's bytes, read big-endian, are the threshold modulo 2^16 (R64). -/
theorem thrEnc_number (t : S16) :
    (((thrEnc t).1.toNat * 256 + (thrEnc t).2.toNat : Nat) : Int) = t.toInt % 2 ^ 16 := by
  have hjoin : (thrEnc t).1.toNat * 256 + (thrEnc t).2.toNat = t.toNat := by
    rw [thrEnc, ← joinBytes_toNat, joinBytes_highByte_lowByte]
  rw [hjoin, BitVec.toInt_eq_toNat_cond]
  split <;> omega

/-- THR_DEC reads a pair as a signed number, its sign being bit 7 of the `_H` byte (R64). -/
theorem thrDec_toInt (b0 b1 : Byte) :
    (thrDec b0 b1).toInt = if b0.getLsbD 7 then (b0.toNat * 256 + b1.toNat : Int) - 2 ^ 16
      else (b0.toNat * 256 + b1.toNat : Int) := by
  have hmsb : (thrDec b0 b1).msb = b0.getLsbD 7 := by
    rw [thrDec, joinBytes_eq_append, BitVec.msb_append]
    rfl
  rw [BitVec.toInt_eq_msb_cond, hmsb, thrDec, joinBytes_toNat]
  norm_cast

/-- Settles O5: THR_ENC cuts the value into its two bytes and THR_DEC joins them. -/
theorem thresholdsAreBigEndianTwosComplement :
    Obligations.ThresholdsAreBigEndianTwosComplement :=
  ⟨fun t _ ready => ⟨(thrEnc t).1, (thrEnc t).2, exec_ready ready (.thrEnc t), thrEnc_number t⟩,
    fun b0 b1 _ ready => ⟨thrDec b0 b1, exec_ready ready (.thrDec b0 b1), thrDec_toInt b0 b1⟩,
    fun _ ready => ⟨exec_ready ready (.thrEnc 1000), exec_ready ready (.thrEnc 0)⟩⟩

/-! ### The result of READ_RAW -/

/-- A set fault flag gives no value, whatever the ratio (R114). -/
@[simp] theorem stepSeven_fault (ratio : Ratio) : stepSeven ratio 1 = none := rfl

/-- A clear fault flag gives the ratio's result (R114). -/
@[simp] theorem stepSeven_noFault (ratio : Ratio) : stepSeven ratio 0 = some (ratioResult ratio) := rfl

/-- Bit 15 of the result of a ratio is 0 (R72). -/
theorem ratioResult_getLsbD_15 (ratio : Ratio) : (ratioResult ratio).getLsbD 15 = false := by
  simp [ratioResult]

/-- The result of a ratio, read as signed, is the ratio (R72). -/
theorem ratioResult_toInt (ratio : Ratio) : (ratioResult ratio).toInt = ratio.toNat := by
  have hmsb : (ratioResult ratio).msb = false := by
    rw [BitVec.msb_eq_getLsbD_last]
    exact ratioResult_getLsbD_15 ratio
  rw [BitVec.toInt_eq_toNat_of_msb hmsb, ratioResult, BitVec.toNat_setWidth_of_le (by decide)]

/-- An RTD read is no CONFIG read: the two addresses differ (R7). -/
theorem addrRtd_ne_addrConfig : Config.addrRtd ≠ Config.addrConfig := by decide

/-- Step 2 reads no RTD pair (R105). -/
theorem rdRtd_notMem_biasEvents (c r0 r1 : Byte) : .rd Config.addrRtd [r0, r1] ∉ biasEvents c := by
  simp [biasEvents, addrRtd_ne_addrConfig]

/-- Step 3 reads no RTD pair (R108). -/
theorem rdRtd_notMem_triggerEvents (c r0 r1 : Byte) :
    .rd Config.addrRtd [r0, r1] ∉ triggerEvents c := by
  simp [triggerEvents, addrRtd_ne_addrConfig]

/-- The readout reads one RTD pair (R112). -/
theorem rdRtd_mem_readoutEvents {c b0 b1 c' r0 r1 : Byte} :
    .rd Config.addrRtd [r0, r1] ∈ readoutEvents c b0 b1 c' ↔ r0 = b0 ∧ r1 = b1 := by
  simp [readoutEvents, addrRtd_ne_addrConfig]

/-- The result `r.1` of a sequence from `s` that ends in `r.2` is step 7's of every RTD pair among the
elements it added to the trace. -/
def DecidedByRtdRead (s : State) (r : Option S16 × State) : Prop :=
  ∃ added : List Event, r.2.trace = s.trace ++ added ∧
    ∀ r0 r1 : Byte, .rd Config.addrRtd [r0, r1] ∈ added →
      r.1 = stepSeven (rtdDec r0 r1).1 (rtdDec r0 r1).2

/-- From step 4 on, the one RTD read there can be is the readout's, which step 7 decides on. -/
theorem endsFrom_decidedByRtdRead {s : State} {evs : List Event} {m : Memory}
    {r : Option S16 × State} (h : endsFrom s evs m r)
    (hevs : ∀ r0 r1 : Byte, .rd Config.addrRtd [r0, r1] ∉ evs) : DecidedByRtdRead s r := by
  obtain ⟨c, d, k, -, rfl⟩ | ⟨c, b0, b1, c', d, k, -, rfl⟩ := h
  · refine ⟨_, after_trace .., fun r0 r1 hmem => ?_⟩
    simp [hevs, addrRtd_ne_addrConfig] at hmem
  · refine ⟨_, after_trace .., fun r0 r1 hmem => ?_⟩
    have hread := (List.mem_append.1 hmem).resolve_left (hevs r0 r1)
    obtain ⟨rfl, rfl⟩ := rdRtd_mem_readoutEvents.1 hread
    rfl

/-- On every path of READ_RAW the result is step 7's of the RTD pair read, if one was (R112, R114). -/
theorem readRawSequence_decidedByRtdRead (s : State) :
    DecidedByRtdRead s (readRawSequence true s) := by
  obtain ⟨-, h⟩ | ⟨-, c, m, -, ⟨-, h⟩ | ⟨-, c', m', -, h⟩⟩ := readRawSequence_cases s
  · rw [h]
    exact ⟨[], (List.append_nil _).symm, fun _ _ hmem => nomatch hmem⟩
  · exact endsFrom_decidedByRtdRead h (rdRtd_notMem_biasEvents c)
  · refine endsFrom_decidedByRtdRead h fun r0 r1 hmem => ?_
    exact (List.mem_append.1 hmem).elim (rdRtd_notMem_biasEvents c r0 r1)
      (rdRtd_notMem_triggerEvents c' r0 r1)

/-- Settles O22: the pair in the added trace is the one step 7 decided on. -/
theorem faultFlagDecidesTheResult : Obligations.FaultFlagDecidesTheResult := by
  intro s ready _
  refine ⟨effect .readRaw s, exec_ready ready .readRaw, fun pre post r0 r1 htrace => ?_⟩
  obtain ⟨added, hadded, hdecided⟩ := readRawSequence_decidedByRtdRead s
  have hsplit : added = pre ++ .rd Config.addrRtd [r0, r1] :: post :=
    List.append_cancel_left (hadded.symm.trans htrace)
  have hresult : (readRawSequence true s).1 = stepSeven (rtdDec r0 r1).1 (rtdDec r0 r1).2 :=
    hdecided r0 r1 (by simp [hsplit])
  have houtcome : (effect .readRaw s).outcome =
      some (.returned (rawResult (stepSeven (rtdDec r0 r1).1 (rtdDec r0 r1).2))) := by
    rw [← hresult]
    rfl
  refine ⟨fun hfault => ?_, fun hclear => ⟨ratioResult (rtdDec r0 r1).1, ?_, rfl,
    ratioResult_getLsbD_15 _, ?_⟩⟩
  · rw [houtcome, hfault, stepSeven_fault, rawResult]
  · rw [houtcome, hclear, stepSeven_noFault, rawResult]
  · rw [ratioResult_toInt]
    have := (rtdDec r0 r1).1.isLt
    omega

end Sys2Proof.Machine

/-! PROOFS. The statements of 41_sequencer.md: what READ_RAW issues before the mode decides its path, that it
issues nothing on an uninitialized instance, and the bytes and the result of INIT. -/

namespace Sys2Proof.Machine

/-! ### The CONFIG byte -/

/-- CFG_DEC reads a record's byte back as the record, field by field and bit by bit (R60, R61). -/
@[simp] theorem cfgDec_cfgEnc (c : CfgRecord) : cfgDec (cfgEnc c) = c := by
  cases c
  simp only [cfgDec, cfgEnc, CfgRecord.mk.injEq]
  and_intros
  all_goals
    ext i hi
    interval_cases i <;> simp

/-- The byte step 2 writes has `vbias = 1` (R105). -/
theorem biasEnableByte_vbias (b : Byte) : (cfgDec (biasEnableByte b)).vbias = 1 := by
  rw [biasEnableByte, cfgDec_cfgEnc]

/-! ### READ_RAW -/

/-- However a sequence ends, its trace begins with the elements of the earlier steps. -/
theorem endsFrom_trace {s : State} {evs : List Event} {m : Memory} {r : Option S16 × State}
    (h : endsFrom s evs m r) : ∃ later, r.2.trace = s.trace ++ (evs ++ later) := by
  obtain ⟨c, d, k, -, rfl⟩ | ⟨c, r0, r1, c', d, k, -, rfl⟩ := h
  · exact ⟨_, after_trace ..⟩
  · exact ⟨_, after_trace ..⟩

/-- On an initialized instance READ_RAW's trace begins with step 2's three elements, in both modes (R105,
R106). -/
theorem readRawSequence_trace {s : State} (hinit : s.initialized = true) :
    ∃ c later, (readRawSequence true s).2.trace = s.trace ++ (biasEvents c ++ later) := by
  obtain ⟨huninit, -⟩ | ⟨-, c, m, -, ⟨-, auto⟩ | ⟨-, c', m', -, oneshot⟩⟩ := readRawSequence_cases s
  · exact absurd (huninit.symm.trans hinit) Bool.false_ne_true
  · exact ⟨c, endsFrom_trace auto⟩
  · obtain ⟨later, htrace⟩ := endsFrom_trace oneshot
    exact ⟨c, triggerEvents c' ++ later, by rw [htrace, List.append_assoc]⟩

/-- On an uninitialized instance READ_RAW's sequence is no value and no traffic (R104). -/
theorem readRawSequence_uninitialized {s : State} (hinit : s.initialized = false) (recheck : Bool) :
    readRawSequence recheck s = (none, s) := by
  simp [readRawSequence, hinit]

/-- Settles O20: both modes begin with step 2's elements, whose write sets `vbias`. -/
theorem biasWriteIsFollowedAtOnceBySettling : Obligations.BiasWriteIsFollowedAtOnceBySettling := by
  refine ⟨rfl, fun s ready hinit => ?_⟩
  obtain ⟨c, later, htrace⟩ := readRawSequence_trace hinit
  exact ⟨effect .readRaw s, c, biasEnableByte c, later, exec_ready ready .readRaw, htrace,
    biasEnableByte_vbias c⟩

/-- Settles O14: the sequence leaves the state as it is, so only the operation's end is left. -/
theorem readRawUninitializedReturnsNone : Obligations.ReadRawUninitializedReturnsNone := by
  intro s ready hinit
  have hseq := readRawSequence_uninitialized hinit Config.autoRecheck
  rw [exec_ready ready]
  simp only [effect, hseq, rawResult, finish_eq_endsWith]

/-! ### INIT -/

/-- INIT's writes append CONFIG, HIGH_FAULT with the maximum and LOW_FAULT with the minimum (R98, R99). -/
theorem initWrites_trace (tmin tmax : S16) (c : CfgRecord) (s : State) :
    (initWrites tmin tmax c s).trace = s.trace ++
      [.wr Config.addrConfig [cfgEnc c],
       .wr Config.addrHighFault [(thrEnc tmax).1, (thrEnc tmax).2],
       .wr Config.addrLowFault [(thrEnc tmin).1, (thrEnc tmin).2]] := by
  simp [initWrites]

/-- INIT's writes store the thresholds' bytes at the four threshold addresses (R47, R99). -/
theorem initWrites_byteAt_thresholds (tmin tmax : S16) (c : CfgRecord) (s : State) :
    (initWrites tmin tmax c s).byteAt 0x03 = some (thrEnc tmax).1 ∧
    (initWrites tmin tmax c s).byteAt 0x04 = some (thrEnc tmax).2 ∧
    (initWrites tmin tmax c s).byteAt 0x05 = some (thrEnc tmin).1 ∧
    (initWrites tmin tmax c s).byteAt 0x06 = some (thrEnc tmin).2 := by
  simp [State.byteAt, initWrites, Config.addrHighFault, Config.addrLowFault,
    Memory.read_write_same, Memory.read_write_other]

/-- Settles O11: INIT's CONFIG byte decodes to the record it encodes, and the threshold bytes it writes are
THR_ENC's. -/
theorem initConfigAndThresholdsAndOk : Obligations.InitConfigAndThresholdsAndOk := by
  constructor
  · intro tmin tmax nw fd fc fl cm s ready
    have hdec : exec (.cfgDec (cfgEnc (initConfig nw fd fc fl cm))) s =
        .next (s.endsWith (.config (initConfig nw fd fc fl cm))) := by
      rw [exec_ready ready, effect, cfgDec_cfgEnc, finish_eq_endsWith]
    exact ⟨effect (.init tmin tmax nw fd fc fl cm) s, cfgEnc (initConfig nw fd fc fl cm),
      (thrEnc tmax).1, (thrEnc tmax).2, (thrEnc tmin).1, (thrEnc tmin).2, exec_ready ready _,
      initWrites_trace .., hdec, exec_ready ready _, exec_ready ready _, rfl⟩
  · intro nw fd fc fl cm s t ready hexec
    obtain rfl : _ = t := Host.Outcome.next.inj ((exec_ready ready _).symm.trans hexec)
    exact initWrites_byteAt_thresholds 0 1000 (initConfig nw fd fc fl cm) s

end Sys2Proof.Machine

/-! PROOFS. The statement of 60_exceptions.md: every operation of a ready instance returns, and only the reads
return NONE. -/

namespace Sys2Proof.Machine

/-- An operation's effect ends with a returned result, and the ones besides the two reads return a value of
their own kind, never NONE (R75, R123). -/
theorem effect_returns (i : Instr) (s : State) :
    ∃ r, (effect i s).outcome = some (.returned r) ∧
      (r = .noValue → i = .readRaw ∨ i = .readScaled) := by
  cases i
  case readRaw => exact ⟨_, finish_outcome .., fun _ => .inl rfl⟩
  case readScaled => exact ⟨_, finish_outcome .., fun _ => .inr rfl⟩
  all_goals exact ⟨_, finish_outcome .., fun isNone => nomatch isNone⟩

/-- Settles O35: a ready instance runs the operation's effect, which returns. -/
theorem operationsReturnAndOnlyReadsReturnNone :
    Obligations.OperationsReturnAndOnlyReadsReturnNone := by
  intro i s ready
  obtain ⟨r, houtcome, hnone⟩ := effect_returns i s
  exact ⟨effect i s, r, exec_ready ready i, houtcome, hnone⟩

end Sys2Proof.Machine

/-! PROOFS. The statements of 30_encoding.md section 3: decoding and encoding are inverse, exactly on the
well-formed commands, and any other command is refused. -/

namespace Sys2Proof

/-! ### Operand records -/

/-- A record fits no fields where it is empty. -/
theorem operandsFit_nil {vs : List Nat} : operandsFit [] vs = true ↔ vs = [] := by
  cases vs <;> simp [operandsFit]

/-- A record fits one more field where it has one more value, in that field's width (R77). -/
theorem operandsFit_cons {w : Nat} {ws vs : List Nat} :
    operandsFit (w :: ws) vs = true ↔
      ∃ v rest, vs = v :: rest ∧ v < 2 ^ w ∧ operandsFit ws rest = true := by
  cases vs <;> simp [operandsFit]

/-- A record fits its fields where there is a value for each and each lies in its width (R77). -/
theorem operandsFit_iff {ws vs : List Nat} :
    operandsFit ws vs = true ↔ ws.length = vs.length ∧ ∀ wv ∈ ws.zip vs, wv.2 < 2 ^ wv.1 := by
  induction ws generalizing vs with
  | nil => cases vs <;> simp [operandsFit]
  | cons w ws ih =>
    cases vs with
    | nil => simp [operandsFit]
    | cons v vs => simp [operandsFit, ih]; tauto

/-! ### Operations and their selectors -/

/-- A selector names the operation that has it (R75). -/
theorem Opcode.selector_of_ofSelector {sel : Byte} {op : Opcode}
    (h : Opcode.ofSelector sel = some op) : op.selector = sel := by
  simpa using List.find?_some h

/-- A command is well-formed where its selector names an operation whose fields its record fits. -/
theorem Command.wellFormed_iff (c : Command) :
    c.wellFormed = true ↔
      ∃ op, Opcode.ofSelector c.selector = some op ∧ operandsFit op.widths c.operands = true := by
  cases h : Opcode.ofSelector c.selector <;>
    simp [Command.wellFormed, Command.selectorListed, Command.fieldsComplete, Command.fieldsInWidth, h,
      operandsFit_iff]

/-- An operation makes of an instruction's operand values that instruction. -/
theorem Opcode.build_operandValues (i : Instr) : i.opcode.build i.operandValues = some i := by
  cases i <;> simp [Instr.opcode, Instr.operandValues, Opcode.build]

/-- From a record that fits, an operation makes an instruction of its own with those operand values: no value
is truncated (R77). -/
theorem Opcode.build_of_operandsFit {op : Opcode} {vs : List Nat}
    (h : operandsFit op.widths vs = true) :
    ∃ i : Instr, op.build vs = some i ∧ i.opcode = op ∧ i.operandValues = vs := by
  cases op <;> simp only [Opcode.widths, operandsFit_cons, operandsFit_nil] at h
  case cfgEnc | init =>
    obtain ⟨v1, _, rfl, h1, v2, _, rfl, h2, v3, _, rfl, h3, v4, _, rfl, h4, v5, _, rfl, h5, v6, _, rfl, h6,
      v7, _, rfl, h7, rfl⟩ := h
    refine ⟨_, rfl, rfl, ?_⟩
    simp only [Instr.operandValues, BitVec.toNat_ofNat, Nat.mod_eq_of_lt, h1, h2, h3, h4, h5, h6, h7]
  case rtdEnc | rtdDec | thrDec =>
    obtain ⟨v1, _, rfl, h1, v2, _, rfl, h2, rfl⟩ := h
    refine ⟨_, rfl, rfl, ?_⟩
    simp only [Instr.operandValues, BitVec.toNat_ofNat, Nat.mod_eq_of_lt, h1, h2]
  case cfgDec | thrEnc | fltEnc | fltDec =>
    obtain ⟨v1, _, rfl, h1, rfl⟩ := h
    refine ⟨_, rfl, rfl, ?_⟩
    simp only [Instr.operandValues, BitVec.toNat_ofNat, Nat.mod_eq_of_lt, h1]
  case deinit | readRaw | readScaled =>
    subst h
    exact ⟨_, rfl, rfl, rfl⟩

/-! ### Decoding -/

/-- When decoding accepts: the three checks of R76 and R77, all passed. -/
theorem decode_eq_ok {c : Command} {i : Instr} :
    decode c = .ok i ↔
      ∃ op, Opcode.ofSelector c.selector = some op ∧ op.build c.operands = some i ∧
        operandsFit op.widths c.operands = true := by
  unfold decode
  split
  case h_1 hsel => simp [hsel]
  case h_2 op hsel =>
    split
    case h_1 hbuild => simp [hsel, hbuild]
    case h_2 j hbuild => split <;> simp_all

/-- An accepted command is the one its instruction encodes to (R77). -/
theorem encode_of_decode {c : Command} {i : Instr} (h : decode c = .ok i) : encode i = c := by
  obtain ⟨op, hsel, hbuild, hfit⟩ := decode_eq_ok.1 h
  obtain ⟨j, hj, hop, hvalues⟩ := Opcode.build_of_operandsFit hfit
  obtain rfl : j = i := Option.some.inj (hj.symm.trans hbuild)
  rw [encode, hop, hvalues, Opcode.selector_of_ofSelector hsel]

/-- Decoding accepts the well-formed commands (R76, R77). -/
theorem wellFormed_iff_decode (c : Command) : c.wellFormed = true ↔ ∃ i, decode c = .ok i := by
  rw [Command.wellFormed_iff]
  constructor
  · rintro ⟨op, hsel, hfit⟩
    obtain ⟨i, hbuild, -, -⟩ := Opcode.build_of_operandsFit hfit
    exact ⟨i, decode_eq_ok.2 ⟨op, hsel, hbuild, hfit⟩⟩
  · rintro ⟨i, h⟩
    obtain ⟨op, hsel, -, hfit⟩ := decode_eq_ok.1 h
    exact ⟨op, hsel, hfit⟩

/-- The command of every instruction is well-formed: `Laws.WellTyped`, constructor by constructor. -/
theorem Instr.wellFormed_all (i : Instr) : i.wellFormed = true := by
  cases i
  case cfgEnc => exact Laws.WellTyped.cfgEnc ..
  case cfgDec => exact Laws.WellTyped.cfgDec ..
  case rtdEnc => exact Laws.WellTyped.rtdEnc ..
  case rtdDec => exact Laws.WellTyped.rtdDec ..
  case thrEnc => exact Laws.WellTyped.thrEnc ..
  case thrDec => exact Laws.WellTyped.thrDec ..
  case fltEnc => exact Laws.WellTyped.fltEnc ..
  case fltDec => exact Laws.WellTyped.fltDec ..
  case init => exact Laws.WellTyped.init ..
  case deinit => exact Laws.WellTyped.deinit
  case readRaw => exact Laws.WellTyped.readRaw
  case readScaled => exact Laws.WellTyped.readScaled

/-- Decoding undoes encoding (R74, R75). -/
@[simp] theorem decode_encode (i : Instr) : decode (encode i) = .ok i := by
  obtain ⟨op, hsel, hfit⟩ := (Command.wellFormed_iff _).1 i.wellFormed_all
  obtain rfl : i.opcode = op := Option.some.inj ((Opcode.ofSelector_selector _).symm.trans hsel)
  exact decode_eq_ok.2 ⟨_, hsel, Opcode.build_operandValues i, hfit⟩

/-- A reserved selector is refused as such (R76). -/
theorem decode_reservedSelector {c : Command} (h : c.selectorListed = false) :
    decode c = .error .reservedSelector := by
  have hsel : Opcode.ofSelector c.selector = none := by simpa [Command.selectorListed] using h
  simp [decode, hsel]

/-- Settles O46: every instruction's command passes the three checks, and the record is its operand values. -/
theorem decodeOfEncodeIsTheInstruction : Obligations.DecodeOfEncodeIsTheInstruction :=
  fun i => ⟨i.wellFormed_all, decode_encode i⟩

/-- Settles O47: decoding accepts where the three checks pass, and then loses no bit of the record. -/
theorem decodeAcceptsExactlyWellFormedCommands : Obligations.DecodeAcceptsExactlyWellFormedCommands :=
  fun c => ⟨wellFormed_iff_decode c, fun _ => encode_of_decode, decode_reservedSelector⟩

/-- Settles O48: each command is written out, so decoding it is a computation. -/
theorem writtenOutCommandsDecode : Obligations.WrittenOutCommandsDecode := by
  unfold Obligations.WrittenOutCommandsDecode
  decide

namespace Machine

/-- A command that is not well-formed decodes to an error whose reason is the reserved selector's or else the
operand's (R76, R77). -/
theorem decode_of_not_wellFormed {c : Command} (h : c.wellFormed = false) :
    ∃ e, decode c = .error e ∧
      decodeReason e = if c.selectorListed then .operandWidth else .reservedSelector := by
  cases hsel : c.selectorListed with
  | false => exact ⟨_, decode_reservedSelector hsel, rfl⟩
  | true =>
    obtain ⟨op, hop⟩ := Option.isSome_iff_exists.1 hsel
    cases hd : decode c with
    | ok i => simp [(wellFormed_iff_decode c).2 ⟨i, hd⟩] at h
    | error e =>
      refine ⟨e, rfl, ?_⟩
      cases e with
      | reservedSelector =>
        simp only [decode, hop] at hd
        split at hd
        · cases hd
        · split at hd <;> cases hd
      | operandCount => rfl
      | operandWidth => rfl

/-- Settles O32: an ill-formed command decodes to an error, which both moves refuse. -/
theorem illFormedCommandsAreRefused : Obligations.IllFormedCommandsAreRefused := by
  intro c s rest hdestroyed hrefused hmove hform
  obtain ⟨e, hdecode, hreason⟩ := decode_of_not_wellFormed hform
  obtain h | h := hmove
  all_goals
    rw [step_move hrefused h, ← hreason]
    simp [hostMove, callCommand, issueCommand, hdecode, refuseCommand, refuse, hdestroyed, hrefused]

end Machine

end Sys2Proof

/-! PROOFS. The statements of 40_codec.md: what each codec operation packs and unpacks, bit by bit, and that
the two directions undo each other; and the CONFIG transforms of READ_RAW on a byte. -/

namespace Sys2Proof.Machine

/-! ### CONFIG -/

/-- CFG_ENC's byte is the record's fields side by side (R60). -/
theorem cfgEnc_eq_append (c : CfgRecord) :
    cfgEnc c = (c.vbias ++ c.convMode ++ c.oneshot ++ c.nwires ++ c.faultDetect ++ c.faultClear
      ++ c.mainsfilter : BitVec 8) := by
  refine BitVec.eq_of_getLsbD_eq (w := 1 + 1 + 1 + 1 + 2 + 1 + 1) fun i hi => ?_
  simp only [BitVec.getLsbD_append]
  interval_cases i <;> simp [cfgEnc]

/-- One bit of a byte as a field (R60). -/
theorem extractLsb'_one_eq_ofBool (b : Byte) (i : Nat) :
    b.extractLsb' i 1 = BitVec.ofBool (b.getLsbD i) := by
  refine BitVec.eq_of_getLsbD_eq fun j hj => ?_
  obtain rfl : j = 0 := by omega
  simp

/-- `fault_detect` is bits 3 and 2 of the byte (R60). -/
theorem extractLsb'_faultDetect (b : Byte) :
    b.extractLsb' 2 2 = (BitVec.ofBool (b.getLsbD 3) ++ BitVec.ofBool (b.getLsbD 2) : BitVec 2) := by
  refine BitVec.eq_of_getLsbD_eq (w := 1 + 1) fun i hi => ?_
  simp only [BitVec.getLsbD_append]
  interval_cases i <;> simp

/-- `conv_mode` is bit 6 (R60). -/
theorem cfgDec_convMode (b : Byte) : (cfgDec b).convMode = BitVec.ofBool (b.getLsbD 6) :=
  extractLsb'_one_eq_ofBool b 6

/-- `oneshot` is bit 5 (R60). -/
theorem cfgDec_oneshot (b : Byte) : (cfgDec b).oneshot = BitVec.ofBool (b.getLsbD 5) :=
  extractLsb'_one_eq_ofBool b 5

/-- CFG_ENC gives back the byte a record was decoded from (R60, R61). -/
@[simp] theorem cfgEnc_cfgDec (b : Byte) : cfgEnc (cfgDec b) = b := by
  ext i hi
  interval_cases i <;> simp [cfgEnc, cfgDec]

/-- Settles O1: CFG_ENC's shifts put the fields side by side. -/
theorem cfgEncPacksFieldsMsbFirst : Obligations.CfgEncPacksFieldsMsbFirst := by
  intro c s ready
  rw [exec_ready ready, effect, cfgEnc_eq_append, finish_eq_endsWith]

/-- Settles O2: each field of CFG_DEC's record is an extract, and so its bits. -/
theorem cfgDecUnpacksEveryByte : Obligations.CfgDecUnpacksEveryByte := by
  intro b s ready
  rw [exec_ready ready, effect, finish_eq_endsWith]
  simp only [cfgDec, extractLsb'_one_eq_ofBool, extractLsb'_faultDetect]

/-! ### Byte pairs -/

/-- A pair's high byte is the one of the lower address (R47). -/
@[simp] theorem highByte_joinBytes (b0 b1 : Byte) : highByte (joinBytes b0 b1) = b0 := by
  rw [joinBytes_eq_append]
  exact BitVec.extractLsb'_append_eq_left

/-- A pair's low byte is the one of the higher address (R47). -/
@[simp] theorem lowByte_joinBytes (b0 b1 : Byte) : lowByte (joinBytes b0 b1) = b1 := by
  rw [joinBytes_eq_append]
  exact BitVec.extractLsb'_append_eq_right

/-- RTD_ENC cuts the fault flag above the ratio into two bytes (R63). -/
theorem rtdEnc_eq (ratio : Ratio) (fault : Bit) :
    rtdEnc ratio fault =
      (highByte (fault ++ ratio : BitVec 16), lowByte (fault ++ ratio : BitVec 16)) := by
  have h := BitVec.setWidth_append_eq_shiftLeft_setWidth_or (b := fault) (b' := ratio) (w'' := 16)
  rw [BitVec.setWidth_eq] at h
  rw [h]
  rfl

/-- RTD_H is the fault flag above the ratio's bits 14:8 (R63). -/
theorem rtdEnc_high (ratio : Ratio) (fault : Bit) :
    (rtdEnc ratio fault).1 = (fault ++ ratio.extractLsb' 8 7 : BitVec 8) := by
  rw [rtdEnc_eq, highByte]
  exact (BitVec.extractLsb'_append_eq_ite (len := 8)).trans (by simp)

/-- RTD_L is the ratio's bits 7:0 (R63). -/
theorem rtdEnc_low (ratio : Ratio) (fault : Bit) :
    (rtdEnc ratio fault).2 = ratio.extractLsb' 0 8 := by
  rw [rtdEnc_eq]
  exact BitVec.extractLsb'_append_eq_of_add_le (by decide)

/-- RTD_DEC undoes RTD_ENC (R62, R63). -/
theorem rtdDec_rtdEnc (ratio : Ratio) (fault : Bit) :
    rtdDec (rtdEnc ratio fault).1 (rtdEnc ratio fault).2 = (ratio, fault) := by
  rw [rtdEnc_eq, rtdDec, joinBytes_highByte_lowByte]
  exact Prod.ext BitVec.extractLsb'_append_eq_right BitVec.extractLsb'_append_eq_left

/-- RTD_DEC cuts the pair between the fault flag and the ratio (R62). -/
theorem rtdDec_append (b0 b1 : Byte) :
    ((rtdDec b0 b1).2 ++ (rtdDec b0 b1).1 : BitVec 16) = joinBytes b0 b1 :=
  BitVec.extractLsb'_append_extractLsb' (w := 1) (len := 15)

/-- The fault flag is bit 7 of RTD_H (R62). -/
theorem rtdDec_fault (b0 b1 : Byte) : (rtdDec b0 b1).2 = BitVec.ofBool (b0.getLsbD 7) := by
  rw [rtdDec_fault_eq, extractLsb'_one_eq_ofBool]

/-- RTD_ENC undoes RTD_DEC (R62, R63). -/
theorem rtdEnc_rtdDec (b0 b1 : Byte) : rtdEnc (rtdDec b0 b1).1 (rtdDec b0 b1).2 = (b0, b1) := by
  rw [rtdEnc_eq, rtdDec_append, highByte_joinBytes, lowByte_joinBytes]

/-- THR_DEC undoes THR_ENC (R64). -/
theorem thrDec_thrEnc (t : S16) : thrDec (thrEnc t).1 (thrEnc t).2 = t :=
  joinBytes_highByte_lowByte t

/-- THR_ENC undoes THR_DEC (R64). -/
theorem thrEnc_thrDec (b0 b1 : Byte) : thrEnc (thrDec b0 b1) = (b0, b1) :=
  Prod.ext (highByte_joinBytes b0 b1) (lowByte_joinBytes b0 b1)

/-- Settles O3: the pair is the 16-bit value with the flag on top, cut in two. -/
theorem rtdEncPutsFaultAboveRatio : Obligations.RtdEncPutsFaultAboveRatio := by
  intro ratio fault s ready
  rw [exec_ready ready, effect, rtdEnc_high, rtdEnc_low, finish_eq_endsWith]

/-- Settles O6: both operations return the byte they are given. -/
theorem faultStatusIsCarriedUnchanged : Obligations.FaultStatusIsCarriedUnchanged :=
  fun b _ ready => ⟨exec_ready ready (.fltEnc b), exec_ready ready (.fltDec b)⟩

/-- Settles O7: each decoder undoes its encoder and the other way round. -/
theorem codecRoundTrips : Obligations.CodecRoundTrips := by
  intro s ready
  refine ⟨fun c => ⟨cfgEnc c, exec_ready ready _, ?_⟩, fun b => ⟨cfgDec b, exec_ready ready _, ?_⟩,
    fun r f => ⟨(rtdEnc r f).1, (rtdEnc r f).2, exec_ready ready _, ?_⟩,
    fun b0 b1 => ⟨(rtdDec b0 b1).1, (rtdDec b0 b1).2, exec_ready ready _, ?_⟩,
    fun t => ⟨(thrEnc t).1, (thrEnc t).2, exec_ready ready _, ?_⟩,
    fun b0 b1 => ⟨thrDec b0 b1, exec_ready ready _, ?_⟩⟩
  · rw [exec_ready ready, effect, cfgDec_cfgEnc, finish_eq_endsWith]
  · rw [exec_ready ready, effect, cfgEnc_cfgDec, finish_eq_endsWith]
  · rw [exec_ready ready, effect, rtdDec_rtdEnc, finish_eq_endsWith]
  · rw [exec_ready ready, effect, rtdEnc_rtdDec, finish_eq_endsWith]
  · rw [exec_ready ready, effect, thrDec_thrEnc, finish_eq_endsWith]
  · rw [exec_ready ready, effect, thrEnc_thrDec, finish_eq_endsWith]

/-! ### READ_RAW's transforms and tests -/

/-- Step 2's byte sets bit 7 and clears bits 5, 3, 2 and 1 (R71, R105). -/
theorem biasEnableByte_eq (b : Byte) : biasEnableByte b = (b ||| 0x80) &&& 0xD1 := by
  ext i hi
  interval_cases i <;> simp [biasEnableByte, cfgEnc, cfgDec]

/-- Step 3's byte sets bit 5 (R71, R108). -/
theorem triggerByte_eq (b : Byte) : triggerByte b = b ||| 0x20 := by
  ext i hi
  interval_cases i <;> simp [triggerByte, cfgEnc, cfgDec]

/-- Step 6's byte clears bit 7 (R71, R113). -/
theorem biasDisableByte_eq (b : Byte) : biasDisableByte b = b &&& 0x7F := by
  ext i hi
  interval_cases i <;> simp [biasDisableByte, cfgEnc, cfgDec]

/-- The mode test on a CONFIG byte is bit 6 clear (R65, R71). -/
theorem isOneshotMode_cfgDec (b : Byte) : isOneshotMode (cfgDec b).convMode = !b.getLsbD 6 := by
  rw [cfgDec_convMode]
  cases b.getLsbD 6 <;> rfl

/-- The not-finished test is bit 5 (R71, R111). -/
theorem notFinished_eq (b : Byte) : notFinished b = b.getLsbD 5 := by
  rw [notFinished, cfgDec_oneshot]
  cases b.getLsbD 5 <;> rfl

/-- Settles O8: the three transforms are masks, and the two tests are bits. -/
theorem configTransformsOnBytes : Obligations.ConfigTransformsOnBytes :=
  fun b => ⟨biasEnableByte_eq b, triggerByte_eq b, biasDisableByte_eq b, isOneshotMode_cfgDec b,
    notFinished_eq b⟩

end Sys2Proof.Machine

/-! PROOFS. The five paths of 41_sequencer.md section 5: what READ_RAW's sequence can do, said once, and the
statements about its trace and its result that follow path by path. -/

namespace Sys2Proof.Machine

/-! ### The register file of a read -/

/-- `m'` is `m`, with CONFIG written or not: all a read can do to the register file. -/
def Memory.ConfigWritten (m m' : Memory) : Prop :=
  m' = m ∨ ∃ b, m' = Memory.write m Config.addrConfig.toNat b

/-- Nothing written. -/
theorem Memory.ConfigWritten.refl (m : Memory) : Memory.ConfigWritten m m := .inl rfl

/-- CONFIG written. -/
theorem Memory.ConfigWritten.write (m : Memory) (b : Byte) :
    Memory.ConfigWritten m (Memory.write m Config.addrConfig.toNat b) := .inr ⟨b, rfl⟩

/-- A CONFIG write hides those before it. -/
theorem Memory.ConfigWritten.write_eq {m m' : Memory} (h : Memory.ConfigWritten m m') (b : Byte) :
    Memory.write m' Config.addrConfig.toNat b = Memory.write m Config.addrConfig.toNat b := by
  obtain rfl | ⟨b', rfl⟩ := h
  · rfl
  · exact Memory.write_write_same ..

/-- What a delay does to CONFIG is a CONFIG write or nothing. -/
theorem Memory.ConfigWritten.delayed {m m' m'' : Memory} (h : Memory.ConfigWritten m m')
    (hd : Memory.delayed m' m'') : Memory.ConfigWritten m m'' := by
  obtain rfl | ⟨b, -, rfl⟩ := hd
  · exact h
  · exact .inr ⟨_, h.write_eq _⟩

/-- A read leaves every register but CONFIG. -/
theorem Memory.ConfigWritten.read_other {m m' : Memory} (h : Memory.ConfigWritten m m') {a : Nat}
    (ha : a ≠ Config.addrConfig.toNat) : Memory.read? m' a = Memory.read? m a := by
  obtain rfl | ⟨b, rfl⟩ := h
  · rfl
  · exact Memory.read_write_other m b ha

/-- A CONFIG write keeps the canonical form. -/
theorem Memory.ConfigWritten.wf {m m' : Memory} (h : Memory.ConfigWritten m m')
    (hm : Memory.wf m = true) : Memory.wf m' = true := by
  obtain rfl | ⟨b, rfl⟩ := h
  · exact hm
  · exact Memory.wf_write m _ b hm

/-- CONFIG is a register of the map (R28). -/
theorem Memory.ConfigWritten.inMap {m m' : Memory} (h : Memory.ConfigWritten m m')
    (hm : Memory.inMap m = true) : Memory.inMap m' = true := by
  obtain rfl | ⟨b, rfl⟩ := h
  · exact hm
  · exact Memory.inMap_write m _ b (by decide) hm

/-- A delay leaves in CONFIG the bits other than `oneshot` of a byte written just before it (R58 c). -/
theorem Memory.delayed_write {m m' : Memory} {b : Byte}
    (h : Memory.delayed (Memory.write m Config.addrConfig.toNat b) m') :
    ∃ b', Memory.read? m' Config.addrConfig.toNat = some b' ∧ b'.getLsbD 7 = b.getLsbD 7 := by
  obtain rfl | ⟨b', hb', rfl⟩ := h
  · exact ⟨b, Memory.read_write_same .., rfl⟩
  · obtain rfl : b = b' := Option.some.inj ((Memory.read_write_same ..).symm.trans hb')
    exact ⟨_, Memory.read_write_same .., by simp⟩

/-! ### The five paths -/

/-- The paths P0 to P4 of R116: the bytes that decide which one is taken, the result, the elements issued and
the register file that is left. -/
inductive ReadPath (s : State) : Option S16 × State → Prop where
  /-- P0: not initialized. -/
  | uninitialized (hinit : s.initialized = false) : ReadPath s (none, s)
  /-- P1: ONESHOT, not finished. -/
  | oneshotPending (hinit : s.initialized = true) (c0 c1 c2 : Byte) (d : Device) (k : Nat) (m : Memory)
      (hmode : isOneshotMode (cfgDec c0).convMode = true) (hdone : notFinished c2 = true)
      (hm : Memory.delayed (Memory.write s.mem Config.addrConfig.toNat (triggerByte c1)) m) :
      ReadPath s (none, s.after d k m
        (biasEvents c0 ++ triggerEvents c1 ++ [.rd Config.addrConfig [c2]]))
  /-- P2: ONESHOT, finished. -/
  | oneshotFinished (hinit : s.initialized = true) (c0 c1 c2 c3 r0 r1 : Byte) (d : Device) (k : Nat)
      (hmode : isOneshotMode (cfgDec c0).convMode = true) (hdone : notFinished c2 = false) :
      ReadPath s (stepSeven (rtdDec r0 r1).1 (rtdDec r0 r1).2,
        s.after d k (Memory.write s.mem Config.addrConfig.toNat (biasDisableByte c3))
          (biasEvents c0 ++ triggerEvents c1 ++ readoutEvents c2 r0 r1 c3))
  /-- P3: AUTO, not finished. -/
  | autoPending (hinit : s.initialized = true) (c0 c2 : Byte) (d : Device) (k : Nat) (m : Memory)
      (hmode : isOneshotMode (cfgDec c0).convMode = false) (hdone : notFinished c2 = true)
      (hm : Memory.delayed (Memory.write s.mem Config.addrConfig.toNat (biasEnableByte c0)) m) :
      ReadPath s (none, s.after d k m (biasEvents c0 ++ [.rd Config.addrConfig [c2]]))
  /-- P4: AUTO, finished. -/
  | autoFinished (hinit : s.initialized = true) (c0 c2 c3 r0 r1 : Byte) (d : Device) (k : Nat)
      (hmode : isOneshotMode (cfgDec c0).convMode = false) (hdone : notFinished c2 = false) :
      ReadPath s (stepSeven (rtdDec r0 r1).1 (rtdDec r0 r1).2,
        s.after d k (Memory.write s.mem Config.addrConfig.toNat (biasDisableByte c3))
          (biasEvents c0 ++ readoutEvents c2 r0 r1 c3))

/-- READ_RAW's sequence takes one of the five paths, for every device (R116). -/
theorem readRawSequence_path (s : State) : ReadPath s (readRawSequence true s) := by
  obtain ⟨hinit, h⟩ | ⟨hinit, c0, m, hm, hpath⟩ := readRawSequence_cases s
  · exact h ▸ .uninitialized hinit
  have hmem : Memory.ConfigWritten s.mem m := (Memory.ConfigWritten.write ..).delayed hm
  obtain ⟨hmode, hend⟩ | ⟨hmode, c1, m1, hm1, hend⟩ := hpath
  · obtain ⟨c2, d, k, hdone, h⟩ | ⟨c2, r0, r1, c3, d, k, hdone, h⟩ := hend
    · exact h ▸ .autoPending hinit c0 c2 d k m hmode hdone hm
    · rw [h, hmem.write_eq]
      exact .autoFinished hinit c0 c2 c3 r0 r1 d k hmode hdone
  · rw [hmem.write_eq] at hm1
    have hmem1 : Memory.ConfigWritten s.mem m1 := (Memory.ConfigWritten.write ..).delayed hm1
    obtain ⟨c2, d, k, hdone, h⟩ | ⟨c2, r0, r1, c3, d, k, hdone, h⟩ := hend
    · exact h ▸ .oneshotPending hinit c0 c1 c2 d k m1 hmode hdone hm1
    · rw [h, hmem1.write_eq]
      exact .oneshotFinished hinit c0 c1 c2 c3 r0 r1 d k hmode hdone

/-! ### What every path has in common -/

/-- Step 2 issues what the block may issue (R43, R106). -/
@[simp] theorem biasEvents_legal (c : Byte) : (biasEvents c).all Event.legal = true := by
  simp [biasEvents, Event.legal]

/-- Step 3 issues what the block may issue (R43, R109). -/
@[simp] theorem triggerEvents_legal (c : Byte) : (triggerEvents c).all Event.legal = true := by
  simp [triggerEvents, Event.legal]

/-- The readout issues what the block may issue (R43). -/
@[simp] theorem readoutEvents_legal (c r0 r1 c' : Byte) :
    (readoutEvents c r0 r1 c').all Event.legal = true := by
  simp [readoutEvents, Event.legal]

/-- A 1-byte CONFIG read is one of the five transactions (R43). -/
@[simp] theorem legal_rdConfig (c : Byte) : Event.legal (.rd Config.addrConfig [c]) = true := rfl

/-- Settling goes on where an earlier part of the trace left it. -/
theorem settled_append (b : Bool) (es es' : List Event) :
    settled b (es ++ es') = settled (settled b es) es' := by
  induction es generalizing b with
  | nil => rfl
  | cons e es ih => exact ih _

/-- The first element's part of `rtdReadsSettled`, a CONFIG read, a write or a delay asking nothing. -/
theorem rtdReadsSettled_cons (b : Bool) (e : Event) (es : List Event) :
    rtdReadsSettled b (e :: es) =
      (rtdReadsSettled b [e] && rtdReadsSettled (settledAfter b e) es) := by
  cases e <;> simp [rtdReadsSettled]

/-- A trace reads RTD on a settled bias where each of its parts does. -/
theorem rtdReadsSettled_append (b : Bool) (es es' : List Event) :
    rtdReadsSettled b (es ++ es') = (rtdReadsSettled b es && rtdReadsSettled (settled b es) es') := by
  induction es generalizing b with
  | nil => rfl
  | cons e es ih =>
    rw [List.cons_append, rtdReadsSettled_cons, ih, rtdReadsSettled_cons b e es, Bool.and_assoc]
    rfl

/-- Step 2 leaves the bias settled, however it was before (R105, R106). -/
@[simp] theorem settled_biasEvents (b : Bool) (c : Byte) : settled b (biasEvents c) = true := by
  simp [biasEvents, settled, settledAfter]

/-- Step 3 leaves the bias settled: its delay is longer than the settling delay (R109; log 20). -/
@[simp] theorem settled_triggerEvents (b : Bool) (c : Byte) : settled b (triggerEvents c) = true := by
  simp [triggerEvents, settled, settledAfter, Config.tBiasMs, Config.tConvMs]

/-- Step 2 does not read RTD (R105). -/
@[simp] theorem rtdReadsSettled_biasEvents (b : Bool) (c : Byte) :
    rtdReadsSettled b (biasEvents c) = true := by
  simp [biasEvents, rtdReadsSettled, addrRtd_ne_addrConfig.symm]

/-- Step 3 does not read RTD (R108). -/
@[simp] theorem rtdReadsSettled_triggerEvents (b : Bool) (c : Byte) :
    rtdReadsSettled b (triggerEvents c) = true := by
  simp [triggerEvents, rtdReadsSettled, addrRtd_ne_addrConfig.symm]

/-- A CONFIG read asks no settled bias. -/
@[simp] theorem rtdReadsSettled_rdConfig (b : Bool) (c : Byte) :
    rtdReadsSettled b [.rd Config.addrConfig [c]] = true := by
  simp [rtdReadsSettled, addrRtd_ne_addrConfig.symm]

/-- The readout reads RTD on the bias as it finds it: nothing is written between the reads of steps 4 and 5. -/
@[simp] theorem rtdReadsSettled_readoutEvents (c r0 r1 c' : Byte) :
    rtdReadsSettled true (readoutEvents c r0 r1 c') = true := by
  simp [readoutEvents, rtdReadsSettled, settledAfter]

/-- What the elements an operation adds have in common: at most ten, each one the block may issue, RTD read
on a settled bias only. -/
def OperationTrace (evs : List Event) : Prop :=
  evs.length ≤ 10 ∧ evs.all Event.legal = true ∧ rtdReadsSettled false evs = true

/-- An operation may add nothing. -/
theorem operationTrace_nil : OperationTrace [] := ⟨by decide, rfl, rfl⟩

/-- A read is traffic that writes CONFIG alone, its elements those of an operation. -/
theorem readRawSequence_traffic (s : State) :
    ∃ d k m evs, (readRawSequence true s).2 = s.after d k m evs ∧ Memory.ConfigWritten s.mem m ∧
      OperationTrace evs := by
  have hpath := readRawSequence_path s
  generalize readRawSequence true s = r at hpath ⊢
  cases hpath with
  | uninitialized => exact ⟨_, _, _, [], after_nil s, .refl _, operationTrace_nil⟩
  | oneshotPending _ c0 c1 c2 d k m _ _ hm =>
    refine ⟨d, k, m, _, rfl, (Memory.ConfigWritten.write ..).delayed hm, ?_, by simp, ?_⟩
    · simp [biasEvents, triggerEvents]
    · simp [rtdReadsSettled_append]
  | oneshotFinished _ c0 c1 c2 c3 r0 r1 d k =>
    refine ⟨d, k, _, _, rfl, .write .., ?_, by simp, ?_⟩
    · simp [biasEvents, triggerEvents, readoutEvents]
    · simp [rtdReadsSettled_append]
  | autoPending _ c0 c2 d k m _ _ hm =>
    refine ⟨d, k, m, _, rfl, (Memory.ConfigWritten.write ..).delayed hm, ?_, by simp, ?_⟩
    · simp [biasEvents]
    · simp [rtdReadsSettled_append]
  | autoFinished _ c0 c2 c3 r0 r1 d k =>
    refine ⟨d, k, _, _, rfl, .write .., ?_, by simp, ?_⟩
    · simp [biasEvents, readoutEvents]
    · simp [rtdReadsSettled_append]

/-- The two reads are READ_RAW's sequence and the end of an operation, in whatever form the result is. -/
theorem effect_of_isRead {i : Instr} (hi : i = .readRaw ∨ i = .readScaled) (s : State) :
    ∃ r, effect i s = finish r (readRawSequence true s).2 := by
  obtain rfl | rfl := hi <;> exact ⟨_, rfl⟩

/-- What READ_RAW and READ_SCALED do to a ready instance besides their result. -/
theorem exec_read_traffic {i : Instr} {s t : State} (hi : i = .readRaw ∨ i = .readScaled)
    (ready : s.Ready) (h : exec i s = .next t) :
    ∃ r d k m evs, t = finish r (s.after d k m evs) ∧ Memory.ConfigWritten s.mem m ∧
      OperationTrace evs := by
  obtain rfl : _ = t := Host.Outcome.next.inj ((exec_ready ready i).symm.trans h)
  obtain ⟨r, hr⟩ := effect_of_isRead hi s
  obtain ⟨d, k, m, evs, htraffic, hrest⟩ := readRawSequence_traffic s
  exact ⟨r, d, k, m, evs, htraffic ▸ hr, hrest⟩

/-- Settles O19: a read is traffic on CONFIG and the end of an operation. -/
theorem readsKeepBlockStateAndOtherRegisters : Obligations.ReadsKeepBlockStateAndOtherRegisters := by
  intro i s t hi ready h
  obtain ⟨r, d, k, m, evs, rfl, hm, -⟩ := exec_read_traffic hi ready h
  exact ⟨rfl, rfl, rfl, rfl, rfl, rfl, ⟨rfl, rfl, rfl, rfl, rfl⟩, fun a ha => hm.read_other ha⟩

/-- Settles O24: on every path a delay of at least `T_BIAS_MS` stands before the RTD read. -/
theorem eachReadSettlesItsBias : Obligations.EachReadSettlesItsBias := by
  intro i s t hi ready h
  obtain ⟨r, d, k, m, evs, rfl, -, -, -, hsettled⟩ := exec_read_traffic hi ready h
  exact ⟨evs, rfl, hsettled⟩

/-! ### Path by path -/

/-- The result of a finished READ_RAW: NONE where bit 7 of RTD_H is set, else the pair (R72, R114). -/
theorem rawResult_stepSeven (r0 r1 : Byte) :
    rawResult (stepSeven (rtdDec r0 r1).1 (rtdDec r0 r1).2) =
      if r0.getLsbD 7 then .noValue else .raw (r0 ++ r1 : BitVec 16) := by
  cases hfault : r0.getLsbD 7 with
  | false =>
    have hclear : (rtdDec r0 r1).2 = 0#1 := by rw [rtdDec_fault, hfault]; rfl
    have hratio : ratioResult (rtdDec r0 r1).1 = (r0 ++ r1 : BitVec 16) := by
      rw [ratioResult_eq_append, ← joinBytes_eq_append, ← rtdDec_append, hclear]
    rw [hclear, ← hratio]
    rfl
  | true =>
    have hset : (rtdDec r0 r1).2 = 1#1 := by rw [rtdDec_fault, hfault]; rfl
    rw [hset]
    rfl

/-- A ready READ_RAW takes one of the five paths and returns the path's result. -/
theorem exec_readRaw_path {s : State} (ready : s.Ready) :
    ∃ p, ReadPath s p ∧ exec .readRaw s = .next (finish (rawResult p.1) p.2) :=
  ⟨_, readRawSequence_path s, exec_ready ready .readRaw⟩

/-- Settles O15: path by path, with the tests and the transforms as bits of the bytes. -/
theorem readRawTakesOneOfFivePaths : Obligations.ReadRawTakesOneOfFivePaths := by
  intro s ready
  obtain ⟨p, hpath, hexec⟩ := exec_readRaw_path ready
  refine ⟨_, hexec, ?_⟩
  cases hpath with
  | uninitialized hinit => exact .inl ⟨hinit, rfl, rfl⟩
  | oneshotPending hinit c0 c1 c2 d k m hmode hdone =>
    refine .inr ⟨hinit, .inl ⟨c0, c1, c2, ?_, ?_, rfl, ?_⟩⟩
    · simpa [isOneshotMode_cfgDec] using hmode
    · simpa [notFinished_eq] using hdone
    · simp [biasEvents, triggerEvents, biasEnableByte_eq, triggerByte_eq]
  | oneshotFinished hinit c0 c1 c2 c3 r0 r1 d k hmode hdone =>
    refine .inr ⟨hinit, .inr (.inl ⟨c0, c1, c2, c3, r0, r1, ?_, ?_, ?_, ?_⟩)⟩
    · simpa [isOneshotMode_cfgDec] using hmode
    · simpa [notFinished_eq] using hdone
    · rw [finish_outcome, rawResult_stepSeven]
    · simp [biasEvents, triggerEvents, readoutEvents, biasEnableByte_eq, triggerByte_eq,
        biasDisableByte_eq]
  | autoPending hinit c0 c2 d k m hmode hdone =>
    refine .inr ⟨hinit, .inr (.inr (.inl ⟨c0, c2, ?_, ?_, rfl, ?_⟩))⟩
    · simpa [isOneshotMode_cfgDec] using hmode
    · simpa [notFinished_eq] using hdone
    · simp [biasEvents, biasEnableByte_eq]
  | autoFinished hinit c0 c2 c3 r0 r1 d k hmode hdone =>
    refine .inr ⟨hinit, .inr (.inr (.inr ⟨c0, c2, c3, r0, r1, ?_, ?_, ?_, ?_⟩))⟩
    · simpa [isOneshotMode_cfgDec] using hmode
    · simpa [notFinished_eq] using hdone
    · rw [finish_outcome, rawResult_stepSeven]
    · simp [biasEvents, readoutEvents, biasEnableByte_eq, biasDisableByte_eq]

end Sys2Proof.Machine

/-! PROOFS. What one step can do, said once: every operation is traffic and an end, every position takes one
row of 41_sequencer.md section 5, every move of the host is one of seven; with the statements on single
operations that follow. -/

namespace Sys2Proof.Machine

/-! ### Operations -/

/-- A codec operation is nothing but an end; the others are INIT, DEINIT and the reads (R75). -/
theorem effect_kinds (i : Instr) :
    (∃ r, effect i = finish r) ∨ i.opcode = .init ∨ i = .deinit ∨
      i = .readRaw ∨ i = .readScaled := by
  cases i
  case init => exact .inr (.inl rfl)
  case deinit => exact .inr (.inr (.inl rfl))
  case readRaw => exact .inr (.inr (.inr (.inl rfl)))
  case readScaled => exact .inr (.inr (.inr (.inr rfl)))
  all_goals exact .inl ⟨_, rfl⟩

/-- INIT is its three writes, the flag, and OK (R98, R100, R101). -/
theorem effect_of_opcode_init {i : Instr} (h : i.opcode = .init) (s : State) :
    ∃ tmin tmax c, effect i s = finish .ok { initWrites tmin tmax c s with initialized := true } := by
  cases i
  case init => exact ⟨_, _, _, rfl⟩
  all_goals cases h

/-- Registers stored to keep the register file canonical and within the map. -/
def Memory.FormKept (m m' : Memory) : Prop :=
  (Memory.wf m = true → Memory.wf m' = true) ∧ (Memory.inMap m = true → Memory.inMap m' = true)

/-- A CONFIG write keeps the register file's form. -/
theorem Memory.ConfigWritten.formKept {m m' : Memory} (h : Memory.ConfigWritten m m') :
    Memory.FormKept m m' := ⟨h.wf, h.inMap⟩

/-- The register file after INIT's writes (R98, R99). -/
theorem initWrites_mem (tmin tmax : S16) (c : CfgRecord) (s : State) :
    (initWrites tmin tmax c s).mem =
      Memory.writeBytes (Memory.writeBytes (Memory.writeBytes s.mem Config.addrConfig.toNat [cfgEnc c])
        Config.addrHighFault.toNat [(thrEnc tmax).1, (thrEnc tmax).2])
        Config.addrLowFault.toNat [(thrEnc tmin).1, (thrEnc tmin).2] := rfl

/-- INIT's writes keep the register file's form: their pairs lie in the map (R28, R98). -/
theorem initWrites_formKept (tmin tmax : S16) (c : CfgRecord) (s : State) :
    Memory.FormKept s.mem (initWrites tmin tmax c s).mem := by
  rw [initWrites_mem]
  exact ⟨fun h => Memory.wf_writeBytes _ _ _ (Memory.wf_writeBytes _ _ _ (Memory.wf_writeBytes _ _ _ h)),
    fun h => Memory.inMap_writeBytes _ _ _ (by simp [Config.addrLowFault, Config.registerCount])
      (Memory.inMap_writeBytes _ _ _ (by simp [Config.addrHighFault, Config.registerCount])
        (Memory.inMap_writeBytes _ _ _ (by simp [Config.addrConfig, Config.registerCount]) h))⟩

/-- INIT's three writes are traffic. -/
theorem initWrites_after (tmin tmax : S16) (c : CfgRecord) (s : State) :
    initWrites tmin tmax c s = s.after s.device s.draws (initWrites tmin tmax c s).mem
      [.wr Config.addrConfig [cfgEnc c],
       .wr Config.addrHighFault [(thrEnc tmax).1, (thrEnc tmax).2],
       .wr Config.addrLowFault [(thrEnc tmin).1, (thrEnc tmin).2]] := by
  simp [initWrites, memWrite_after]

/-- Every operation is traffic and an end, `initialized` apart. -/
theorem effect_traffic (i : Instr) (s : State) :
    ∃ r flag d k m evs, effect i s = finish r ({ s with initialized := flag }.after d k m evs) ∧
      Memory.FormKept s.mem m ∧ OperationTrace evs := by
  obtain ⟨r, h⟩ | hinit | rfl | hread := effect_kinds i
  · exact ⟨r, s.initialized, _, _, _, [], by rw [h, ← after_nil], ⟨id, id⟩, operationTrace_nil⟩
  · obtain ⟨tmin, tmax, c, h⟩ := effect_of_opcode_init hinit s
    rw [initWrites_after] at h
    exact ⟨.ok, true, _, _, _, _, h, initWrites_formKept tmin tmax c s, by simp, rfl, rfl⟩
  · exact ⟨.ok, false, _, _, _, [], congrArg _ (after_nil _), ⟨id, id⟩, operationTrace_nil⟩
  · obtain ⟨r, h⟩ := effect_of_isRead hread s
    obtain ⟨d, k, m, evs, htraffic, hm, hevs⟩ := readRawSequence_traffic s
    exact ⟨r, s.initialized, d, k, m, evs, htraffic ▸ h, hm.formKept, hevs⟩

/-- Settles O38: an operation that ran is traffic, and one that was refused adds nothing. -/
theorem operationsAppendAtMostTenLegalElements :
    Obligations.OperationsAppendAtMostTenLegalElements := by
  intro i s t h
  obtain ⟨-, rfl⟩ | ⟨-, -, -, reason, rfl⟩ := exec_next h
  · obtain ⟨r, flag, d, k, m, evs, heffect, -, hlength, hlegal, -⟩ := effect_traffic i s
    exact ⟨evs, by rw [heffect]; rfl, hlength, hlegal⟩
  · exact ⟨[], by simp, by simp, rfl⟩

/-- Settles O36: the codec operations and the reads leave the flag, and a refused operation does too. -/
theorem onlyInitAndDeinitChangeInitialized : Obligations.OnlyInitAndDeinitChangeInitialized := by
  intro i s t h
  obtain ⟨-, rfl⟩ | ⟨-, -, -, reason, rfl⟩ := exec_next h
  · obtain ⟨r, h⟩ | hinit | rfl | hread := effect_kinds i
    · rw [h]
      exact .inl rfl
    · obtain ⟨tmin, tmax, c, h⟩ := effect_of_opcode_init hinit s
      rw [h]
      exact .inr (.inl ⟨hinit, rfl⟩)
    · exact .inr (.inr ⟨rfl, rfl⟩)
    · obtain ⟨r, h⟩ := effect_of_isRead hread s
      obtain ⟨d, k, m, evs, htraffic, -⟩ := readRawSequence_traffic s
      rw [h, htraffic]
      exact .inl rfl
  · exact .inl rfl

/-- A codec operation is nothing but an end. -/
theorem effect_of_codec {i : Instr} (hinit : i.opcode ≠ .init) (hdeinit : i ≠ .deinit)
    (hraw : i ≠ .readRaw) (hscaled : i ≠ .readScaled) : ∃ r, effect i = finish r :=
  (effect_kinds i).resolve_right (by simp [hinit, hdeinit, hraw, hscaled])

/-- An operation that is neither INIT nor a read is an end, `initialized` apart. -/
theorem effect_of_noTraffic {i : Instr} (hinit : i.opcode ≠ .init) (hraw : i ≠ .readRaw)
    (hscaled : i ≠ .readScaled) (s : State) :
    ∃ r flag, effect i s = finish r { s with initialized := flag } ∧
      (i ≠ .deinit → flag = s.initialized) := by
  by_cases hdeinit : i = .deinit
  · subst hdeinit
    exact ⟨.ok, false, rfl, fun h => absurd rfl h⟩
  · obtain ⟨r, h⟩ := effect_of_codec hinit hdeinit hraw hscaled
    exact ⟨r, s.initialized, by rw [h], fun _ => rfl⟩

/-- Settles O37: these operations are ends, of a result that does not depend on the state. -/
theorem noTransactionOutsideInitAndReads : Obligations.NoTransactionOutsideInitAndReads := by
  refine ⟨fun i s t hinit hraw hscaled h => ?_, fun i s ready hinit hdeinit hraw hscaled => ?_⟩
  · obtain ⟨-, rfl⟩ | ⟨-, -, -, reason, rfl⟩ := exec_next h
    · obtain ⟨r, flag, heffect, hflag⟩ := effect_of_noTraffic hinit hraw hscaled s
      rw [heffect]
      exact ⟨rfl, rfl, rfl, fun _ => rfl, hflag⟩
    · exact ⟨rfl, rfl, rfl, fun _ => rfl, fun _ => rfl⟩
  · obtain ⟨r, heffect⟩ := effect_of_codec hinit hdeinit hraw hscaled
    refine ⟨r, fun flag => ?_⟩
    have hready : State.Ready { s with initialized := flag } := ready
    rw [exec_ready hready, heffect, finish_eq_endsWith]

/-! ### Positions -/

/-- A read in progress that has no value returns NONE, READ_SCALED as READ_RAW (R117). -/
theorem returnRead_none (s : State) : returnRead none s = s.endsWith .noValue := by
  unfold returnRead
  split <;> rfl

/-- The rows of R115, with step 4 in both modes: what a position of a read in progress does to the state. -/
inductive PositionStep (s : State) : State → Prop where
  | idle (hseq : s.seq = .idle) : PositionStep s s
  | checkFails (hseq : s.seq = .check) (hinit : s.initialized = false) :
      PositionStep s (returnRead none s)
  | check (hseq : s.seq = .check) (hinit : s.initialized = true) :
      PositionStep s { s with seq := .biasRd }
  | biasRd (hseq : s.seq = .biasRd) (b : Byte) (d : Device) :
      PositionStep s { s.after d (s.draws + 1) s.mem [.rd Config.addrConfig [b]] with
        seq := .biasWr, cWork := some b, modeL := some (cfgDec b).convMode }
  | biasWr (hseq : s.seq = .biasWr) (b : Byte) (hc : s.cWork = some b) :
      PositionStep s { memWrite s Config.addrConfig [biasEnableByte b] with seq := .settle }
  | settle (hseq : s.seq = .settle) (mode : Bit) (hmode : s.modeL = some mode) (m : Memory)
      (hm : Memory.delayed s.mem m) :
      PositionStep s { s.after s.device s.draws m [.dly Config.tBiasMs] with
        seq := afterSettle true mode }
  | trigRd (hseq : s.seq = .trigRd) (b : Byte) (d : Device) :
      PositionStep s { s.after d (s.draws + 1) s.mem [.rd Config.addrConfig [b]] with
        seq := .trigWr, cWork := some b }
  | trigWr (hseq : s.seq = .trigWr) (b : Byte) (hc : s.cWork = some b) :
      PositionStep s { memWrite s Config.addrConfig [triggerByte b] with seq := .conv }
  | conv (hseq : s.seq = .conv) (m : Memory) (hm : Memory.delayed s.mem m) :
      PositionStep s { s.after s.device s.draws m [.dly Config.tConvMs] with seq := .doneRd }
  | doneRdPending (hseq : s.seq = .doneRd) (b : Byte) (d : Device) (hb : notFinished b = true) :
      PositionStep s (returnRead none (s.after d (s.draws + 1) s.mem [.rd Config.addrConfig [b]]))
  | doneRd (hseq : s.seq = .doneRd) (b : Byte) (d : Device) (hb : notFinished b = false) :
      PositionStep s { s.after d (s.draws + 1) s.mem [.rd Config.addrConfig [b]] with
        seq := .rtdRd, cWork := some b }
  | rtdRd (hseq : s.seq = .rtdRd) (r0 r1 : Byte) (d : Device) :
      PositionStep s { s.after d (s.draws + 2) s.mem [.rd Config.addrRtd [r0, r1]] with
        seq := .unbiasRd, rtdRatio := some (rtdDec r0 r1).1, rtdFault := some (rtdDec r0 r1).2 }
  | unbiasRd (hseq : s.seq = .unbiasRd) (b : Byte) (d : Device) :
      PositionStep s { s.after d (s.draws + 1) s.mem [.rd Config.addrConfig [b]] with
        seq := .unbiasWr, cWork := some b }
  | unbiasWr (hseq : s.seq = .unbiasWr) (b : Byte) (hc : s.cWork = some b) :
      PositionStep s { memWrite s Config.addrConfig [biasDisableByte b] with seq := .result }
  | result (hseq : s.seq = .result) (v : Option S16) : PositionStep s (returnRead v s)

/-- A position that goes on after reading a working register found a value there. -/
theorem withReg_next {α : Type} {r : WorkReg} {v : Option α} {t : State}
    {go : α → Host.Outcome State Fault Refusal} (h : withReg r v go = .next t) :
    ∃ x, v = some x ∧ go x = .next t := by
  cases v with
  | none => cases h
  | some x => exact ⟨x, rfl, h⟩

/-- `S_BIAS_RD` reads CONFIG into `c_work` and its mode into `mode_l` (R105, R107). -/
theorem advance_biasRd {s : State} (hseq : s.seq = .biasRd) :
    ∃ b d, advance true s = .next { s.after d (s.draws + 1) s.mem [.rd Config.addrConfig [b]] with
      seq := .biasWr, cWork := some b, modeL := some (cfgDec b).convMode } := by
  obtain ⟨b, d, hread⟩ := readByte_after s Config.addrConfig
  exact ⟨b, d, by simp only [advance, hseq, atBiasRd, hread]⟩

/-- `S_TRIG_RD` reads CONFIG into `c_work` (R108). -/
theorem advance_trigRd {s : State} (hseq : s.seq = .trigRd) :
    ∃ b d, advance true s = .next { s.after d (s.draws + 1) s.mem [.rd Config.addrConfig [b]] with
      seq := .trigWr, cWork := some b } := by
  obtain ⟨b, d, hread⟩ := readByte_after s Config.addrConfig
  exact ⟨b, d, by simp only [advance, hseq, atTrigRd, hread]⟩

/-- `S_DONE_RD` reads CONFIG; where `oneshot` is still set the read returns NONE (R111). -/
theorem advance_doneRd {s : State} (hseq : s.seq = .doneRd) :
    ∃ b d, (notFinished b = true ∧ advance true s =
        .next (returnRead none (s.after d (s.draws + 1) s.mem [.rd Config.addrConfig [b]]))) ∨
      (notFinished b = false ∧ advance true s =
        .next { s.after d (s.draws + 1) s.mem [.rd Config.addrConfig [b]] with
          seq := .rtdRd, cWork := some b }) := by
  obtain ⟨b, d, hread⟩ := readByte_after s Config.addrConfig
  cases hb : notFinished b
  · exact ⟨b, d, .inr ⟨hb, by simp [advance, hseq, atDoneRd, hread, hb]⟩⟩
  · exact ⟨b, d, .inl ⟨hb, by simp [advance, hseq, atDoneRd, hread, hb]⟩⟩

/-- `S_RTD_RD` reads RTD into `rtd_ratio` and `rtd_fault` (R112). -/
theorem advance_rtdRd {s : State} (hseq : s.seq = .rtdRd) :
    ∃ r0 r1 d, advance true s =
      .next { s.after d (s.draws + 2) s.mem [.rd Config.addrRtd [r0, r1]] with
        seq := .unbiasRd, rtdRatio := some (rtdDec r0 r1).1, rtdFault := some (rtdDec r0 r1).2 } := by
  obtain ⟨r0, r1, d, hread⟩ := readPair_after s Config.addrRtd
  exact ⟨r0, r1, d, by simp only [advance, hseq, atRtdRd, hread]⟩

/-- `S_UNBIAS_RD` reads CONFIG into `c_work` (R113). -/
theorem advance_unbiasRd {s : State} (hseq : s.seq = .unbiasRd) :
    ∃ b d, advance true s = .next { s.after d (s.draws + 1) s.mem [.rd Config.addrConfig [b]] with
      seq := .unbiasWr, cWork := some b } := by
  obtain ⟨b, d, hread⟩ := readByte_after s Config.addrConfig
  exact ⟨b, d, by simp only [advance, hseq, atUnbiasRd, hread]⟩

/-- A position that goes on takes a row of R115. -/
theorem advance_next {s t : State} (h : advance true s = .next t) : PositionStep s t := by
  cases hseq : s.seq with
  | idle =>
    simp only [advance, hseq] at h
    cases h
    exact .idle hseq
  | check =>
    simp only [advance, hseq, atCheck] at h
    split at h
    case isTrue hinit =>
      cases h
      exact .check hseq hinit
    case isFalse hinit =>
      cases h
      exact .checkFails hseq (Bool.eq_false_iff.2 hinit)
  | biasRd =>
    obtain ⟨b, d, hnext⟩ := advance_biasRd hseq
    cases hnext.symm.trans h
    exact .biasRd hseq b d
  | biasWr =>
    simp only [advance, hseq] at h
    obtain ⟨b, hc, h⟩ := withReg_next h
    cases h
    exact .biasWr hseq b hc
  | settle =>
    simp only [advance, hseq] at h
    obtain ⟨mode, hmode, h⟩ := withReg_next h
    obtain ⟨m, hdelay, hm⟩ := delay_after s Config.tBiasMs
    rw [hdelay] at h
    cases h
    exact .settle hseq mode hmode m hm
  | trigRd =>
    obtain ⟨b, d, hnext⟩ := advance_trigRd hseq
    cases hnext.symm.trans h
    exact .trigRd hseq b d
  | trigWr =>
    simp only [advance, hseq] at h
    obtain ⟨b, hc, h⟩ := withReg_next h
    cases h
    exact .trigWr hseq b hc
  | conv =>
    obtain ⟨m, hdelay, hm⟩ := delay_after s Config.tConvMs
    simp only [advance, hseq, atConv, hdelay] at h
    cases h
    exact .conv hseq m hm
  | doneRd =>
    obtain ⟨b, d, ⟨hb, hnext⟩ | ⟨hb, hnext⟩⟩ := advance_doneRd hseq
    · cases hnext.symm.trans h
      exact .doneRdPending hseq b d hb
    · cases hnext.symm.trans h
      exact .doneRd hseq b d hb
  | rtdRd =>
    obtain ⟨r0, r1, d, hnext⟩ := advance_rtdRd hseq
    cases hnext.symm.trans h
    exact .rtdRd hseq r0 r1 d
  | unbiasRd =>
    obtain ⟨b, d, hnext⟩ := advance_unbiasRd hseq
    cases hnext.symm.trans h
    exact .unbiasRd hseq b d
  | unbiasWr =>
    simp only [advance, hseq] at h
    obtain ⟨b, hc, h⟩ := withReg_next h
    cases h
    exact .unbiasWr hseq b hc
  | result =>
    simp only [advance, hseq] at h
    obtain ⟨fault, -, h⟩ := withReg_next h
    split at h
    · cases h
      exact .result hseq none
    · obtain ⟨ratio, -, h⟩ := withReg_next h
      cases h
      exact .result hseq _

/-! ### Moves of the host -/

/-- What a move of the host, or the block going on, does to the state (R126, R133, R134). -/
inductive HostStep (s : State) : State → Prop where
  | refuse (reason : RefuseReason) : HostStep s (refuse reason s)
  | run (ready : s.Ready) (i : Instr) : HostStep s (effect i s)
  | start (ready : s.Ready) (scaled : Bool) : HostStep s (startRead scaled s)
  | position (t : State) (h : PositionStep s t) : HostStep s t
  | moveAway (idle : s.seq = .idle) : HostStep s { s with live := false }
  | destroy (idle : s.seq = .idle) : HostStep s { s with destroyed := true }
  | create : HostStep s (resetBlock s)

/-- An accepted operation ran, or was refused. -/
theorem hostStep_of_exec {i : Instr} {s t : State} (h : exec i s = .next t) : HostStep s t := by
  obtain ⟨ready, rfl⟩ | ⟨-, -, -, reason, rfl⟩ := exec_next h
  · exact .run ready i
  · exact .refuse reason

/-- An issued read started, or was refused. -/
theorem hostStep_of_start {scaled : Bool} {s t : State} (h : accept s (startRead scaled) = .next t) :
    HostStep s t := by
  obtain ⟨ready, rfl⟩ | ⟨-, -, -, reason, rfl⟩ := accept_next h
  · exact .start ready scaled
  · exact .refuse reason

/-- A command that is no instruction is refused. -/
theorem hostStep_of_refuseCommand {e : DecodeError} {s t : State} (h : refuseCommand e s = .next t) :
    HostStep s t := by
  unfold refuseCommand at h
  split at h
  · cases h
  · split at h
    · cases h
    · cases h
      exact .refuse _

/-- Every move of the host that has a next state is one of the seven. -/
theorem hostMove_next {m : HostMove} {s t : State} (h : hostMove m s = .next t) : HostStep s t := by
  cases m with
  | call c =>
    simp only [hostMove, callCommand] at h
    split at h
    · exact hostStep_of_refuseCommand h
    · exact hostStep_of_exec h
  | issue c =>
    simp only [hostMove, issueCommand] at h
    split at h
    · exact hostStep_of_refuseCommand h
    · exact hostStep_of_start h
    · exact hostStep_of_start h
    · exact hostStep_of_exec h
  | wait => exact .position t (advance_next h)
  | moveAway =>
    simp only [hostMove, moveInstance] at h
    split at h
    · cases h
    · split at h
      · cases h
      · rename_i idle
        cases h
        exact .moveAway (not_not.1 idle)
  | destroy =>
    obtain ⟨-, ⟨idle, rfl⟩ | ⟨-, rfl⟩⟩ := destroyInstance_next h
    · exact .destroy idle
    · exact .refuse _
  | create =>
    simp only [hostMove, createInstance] at h
    split at h
    · cases h
      exact .create
    · cases h

/-- Every step is a move of the host, taken off the list of those to come, or a position. -/
theorem step_next {s t : State} (h : step s = .next t) :
    ∃ inbox, HostStep { s with inbox := inbox } t := by
  unfold step at h
  split at h
  · cases h
  · split at h
    · exact ⟨s.inbox, .position t (advance_next h)⟩
    · exact ⟨_, hostMove_next h⟩

end Sys2Proof.Machine

/-! PROOFS. The invariants of a run: each of the seven things a step can do keeps them. -/

namespace Sys2Proof.Machine

/-! ### The register file, the trace and the working registers -/

/-- The invariant on the device's side: a canonical register file within the map, a legal trace. -/
def State.DeviceInv (s : State) : Prop :=
  Memory.wf s.mem = true ∧ Memory.inMap s.mem = true ∧ s.trace.all Event.legal = true

/-- The invariant in its two parts. -/
theorem State.inv_iff (s : State) : s.Inv ↔ s.DeviceInv ∧ s.workReady := by
  simp only [State.Inv, State.DeviceInv, and_assoc]

/-- Legal traffic that keeps the register file's form keeps the invariant on the device's side. -/
theorem State.DeviceInv.after {s : State} (h : s.DeviceInv) {m : Memory} {evs : List Event}
    (hm : Memory.FormKept s.mem m) (hevs : evs.all Event.legal = true) (d : Device) (k : Nat) :
    (s.after d k m evs).DeviceInv := by
  obtain ⟨hwf, hmap, htrace⟩ := h
  exact ⟨hm.1 hwf, hm.2 hmap, by simp [htrace, hevs]⟩

/-- A CONFIG read keeps the invariant on the device's side. -/
theorem State.DeviceInv.rdConfig {s : State} (h : s.DeviceInv) (b : Byte) (d : Device) (k : Nat) :
    (s.after d k s.mem [.rd Config.addrConfig [b]]).DeviceInv :=
  h.after ⟨id, id⟩ rfl d k

/-- A CONFIG write keeps the invariant on the device's side. -/
theorem State.DeviceInv.wrConfig {s : State} (h : s.DeviceInv) (b : Byte) :
    (memWrite s Config.addrConfig [b]).DeviceInv :=
  h.after (Memory.ConfigWritten.write s.mem b).formKept rfl s.device s.draws

/-- A named delay keeps the invariant on the device's side. -/
theorem State.DeviceInv.dly {s : State} (h : s.DeviceInv) {ms : Nat} {m : Memory}
    (hm : Memory.delayed s.mem m) (hms : Event.legal (.dly ms) = true) (d : Device) (k : Nat) :
    (s.after d k m [.dly ms]).DeviceInv :=
  h.after ((Memory.ConfigWritten.refl s.mem).delayed hm).formKept (by simpa using hms) d k

/-- At the end of an operation the working registers are as the idle position needs them (R22). -/
theorem finish_workReady (r : Result) (s : State) : (finish r s).workReady := ⟨rfl, rfl, rfl, rfl, rfl⟩

/-- The positions settling leads to need no working register (R107, R110). -/
theorem workReady_of_afterSettle {s : State} {recheck : Bool} {mode : Bit}
    (h : s.seq = afterSettle recheck mode) : s.workReady := by
  unfold afterSettle at h
  unfold State.workReady
  split at h
  · rw [h]; trivial
  · split at h <;> (rw [h]; trivial)

/-- Every position hands on the working registers the next one needs (R22). -/
theorem PositionStep.keeps_workReady {s t : State} (h : PositionStep s t) (hs : s.workReady) :
    t.workReady := by
  cases h with
  | idle => exact hs
  | checkFails | doneRdPending | result => exact finish_workReady ..
  | check | trigWr | conv | doneRd => trivial
  | biasRd | rtdRd => exact ⟨rfl, rfl⟩
  | trigRd => exact rfl
  | settle => exact workReady_of_afterSettle rfl
  | biasWr hseq =>
    rw [State.workReady, hseq] at hs
    exact hs.2
  | unbiasRd hseq =>
    rw [State.workReady, hseq] at hs
    exact ⟨rfl, hs⟩
  | unbiasWr hseq =>
    rw [State.workReady, hseq] at hs
    exact hs.2

/-- A legal pair read of RTD (R43). -/
theorem legal_rdRtd (r0 r1 : Byte) : Event.legal (.rd Config.addrRtd [r0, r1]) = true := rfl

/-- Every position's traffic is legal. -/
theorem PositionStep.keeps_deviceInv {s t : State} (h : PositionStep s t) (hs : s.DeviceInv) :
    t.DeviceInv := by
  cases h with
  | idle | checkFails | check | result => exact hs
  | biasRd _ b d | trigRd _ b d | doneRdPending _ b d | doneRd _ b d | unbiasRd _ b d =>
    exact hs.rdConfig b d (s.draws + 1)
  | biasWr _ b | trigWr _ b | unbiasWr _ b => exact hs.wrConfig _
  | settle _ _ _ m hm | conv _ m hm => exact hs.dly hm rfl s.device s.draws
  | rtdRd _ r0 r1 d => exact hs.after ⟨id, id⟩ (by simp [legal_rdRtd]) d (s.draws + 2)

/-- Every operation's traffic is legal. -/
theorem effect_keeps_deviceInv (i : Instr) {s : State} (hs : s.DeviceInv) :
    (effect i s).DeviceInv := by
  obtain ⟨r, flag, d, k, m, evs, h, hm, -, hlegal, -⟩ := effect_traffic i s
  rw [h]
  exact State.DeviceInv.after (s := { s with initialized := flag }) hs hm hlegal d k

/-- Every operation ends with the sequencer idle and the working registers gone (R22, R24). -/
theorem effect_ends (i : Instr) (s : State) : ∃ r u, effect i s = finish r u := by
  obtain ⟨r, flag, d, k, m, evs, h, -⟩ := effect_traffic i s
  exact ⟨r, _, h⟩

/-- Every move of the host keeps the invariant. -/
theorem HostStep.keeps_inv {s t : State} (h : HostStep s t) (hs : s.Inv) : t.Inv := by
  rw [State.inv_iff] at hs ⊢
  obtain ⟨hdevice, hwork⟩ := hs
  cases h with
  | refuse | moveAway | destroy => exact ⟨hdevice, hwork⟩
  | run _ i =>
    refine ⟨effect_keeps_deviceInv i hdevice, ?_⟩
    obtain ⟨r, u, h⟩ := effect_ends i s
    exact h ▸ finish_workReady r u
  | start => exact ⟨hdevice, trivial⟩
  | position _ h => exact ⟨h.keeps_deviceInv hdevice, h.keeps_workReady hwork⟩
  | create =>
    obtain ⟨hwf, hmap, -⟩ := hdevice
    exact ⟨⟨hwf, hmap, rfl⟩, rfl, rfl, rfl, rfl, rfl⟩

/-- Settles O43: what is next in the list of the host's moves does not matter to the invariant. -/
theorem stepKeepsTheInvariant : Obligations.StepKeepsTheInvariant := by
  intro s t hs h
  obtain ⟨inbox, hstep⟩ := step_next h
  exact hstep.keeps_inv hs

/-! ### The bias -/

/-- A settled bias stays settled where an unsettled one would. -/
theorem settledAfter_mono {b b' : Bool} (hb : b = true → b' = true) {e : Event}
    (h : settledAfter b e = true) : settledAfter b' e = true := by
  cases e with
  | rd => exact hb h
  | dly =>
    simp only [settledAfter, Bool.or_eq_true] at h ⊢
    exact h.imp_left hb
  | wr a bs =>
    match bs with
    | [] | _ :: _ :: _ => exact hb h
    | [x] =>
      simp only [settledAfter] at h ⊢
      split at h
      case isTrue => cases h
      case isFalse hbias =>
        rw [if_neg hbias]
        exact hb h

/-- Where the RTD reads of a trace come on a settled bias, they do so too if it was settled before. -/
theorem rtdReadsSettled_mono {b b' : Bool} (hb : b = true → b' = true) {es : List Event}
    (h : rtdReadsSettled b es = true) : rtdReadsSettled b' es = true := by
  induction es generalizing b b' with
  | nil => rfl
  | cons e es ih =>
    rw [rtdReadsSettled_cons, Bool.and_eq_true] at h ⊢
    obtain ⟨hfirst, hlater⟩ := h
    refine ⟨?_, ih (settledAfter_mono hb) hlater⟩
    cases e with
    | rd a bs =>
      simp only [rtdReadsSettled, Bool.and_true, Bool.or_eq_true] at hfirst ⊢
      exact hfirst.imp_right hb
    | wr | dly => rfl

/-- The bias invariant goes on over more elements where they read RTD on a settled bias, and where the bias is
settled at the end if the position wants it. -/
theorem State.BiasInv.extend {s t : State} (h : s.BiasInv) {evs : List Event}
    (htrace : t.trace = s.trace ++ evs)
    (hreads : rtdReadsSettled (settled false s.trace) evs = true)
    (hsettled : t.seq = .doneRd ∨ t.seq = .rtdRd →
      settled (settled false s.trace) evs = true) : t.BiasInv := by
  obtain ⟨hpast, -⟩ := h
  constructor
  · rw [htrace, rtdReadsSettled_append, hpast, hreads]
    rfl
  · rw [htrace, settled_append]
    exact hsettled

/-- The positions on the way to the RTD read follow a delay or another such position. -/
theorem PositionStep.keeps_biasInv {s t : State} (h : PositionStep s t) (hs : s.BiasInv) : t.BiasInv := by
  cases h with
  | idle => exact hs
  | check | checkFails | result =>
    exact hs.extend (List.append_nil _).symm rfl (by simp [returnRead])
  | biasRd | trigRd | doneRdPending | unbiasRd =>
    exact hs.extend rfl (rtdReadsSettled_rdConfig ..) (by simp [returnRead])
  | biasWr | trigWr | unbiasWr => exact hs.extend rfl rfl (by simp)
  | settle | conv =>
    exact hs.extend rfl rfl fun _ => by
      simp [settled, settledAfter, Config.tBiasMs, Config.tConvMs]
  | doneRd hseq => exact hs.extend rfl (rtdReadsSettled_rdConfig ..) fun _ => hs.2 (.inl hseq)
  | rtdRd hseq r0 r1 =>
    refine hs.extend rfl ?_ (by simp)
    rw [hs.2 (.inr hseq)]
    rfl

/-- Every move of the host keeps RTD reads behind a settled bias. -/
theorem HostStep.keeps_biasInv {s t : State} (h : HostStep s t) (hs : s.BiasInv) : t.BiasInv := by
  cases h with
  | refuse | moveAway | destroy => exact hs
  | run _ i =>
    obtain ⟨r, flag, d, k, m, evs, h, -, -, -, hreads⟩ := effect_traffic i s
    rw [h]
    exact hs.extend rfl (rtdReadsSettled_mono (by simp) hreads) (by simp)
  | start => exact hs.extend (List.append_nil _).symm rfl (by simp)
  | position _ h => exact h.keeps_biasInv hs
  | create => exact ⟨rfl, by simp [State.reset]⟩

/-- Settles O44: what is next in the list of the host's moves does not matter to the bias. -/
theorem stepKeepsBiasSettledBeforeRtdReads : Obligations.StepKeepsBiasSettledBeforeRtdReads := by
  intro s t hs h
  obtain ⟨inbox, hstep⟩ := step_next h
  exact hstep.keeps_biasInv hs

/-- Settles O42: the register file and the trace are empty, and the block is idle. -/
theorem invariantsHoldAtReset : Obligations.InvariantsHoldAtReset :=
  ⟨⟨rfl, rfl, rfl, rfl, rfl, rfl, rfl, rfl⟩, rfl, by simp [State.reset]⟩

/-! ### Working registers -/

/-- A position whose working registers hold values does not fault (R22). -/
theorem advance_no_fault {s : State} (h : s.workReady) (f : Fault) : advance true s ≠ .fault f := by
  cases hseq : s.seq <;> rw [State.workReady, hseq] at h <;> simp only [advance, hseq]
  case idle | biasRd | trigRd | conv | rtdRd | unbiasRd => exact nofun
  case check => unfold atCheck; split <;> exact nofun
  case doneRd => unfold atDoneRd; simp only; split <;> exact nofun
  case biasWr =>
    obtain ⟨b, hb⟩ := Option.isSome_iff_exists.1 h.1
    rw [atBiasWr, hb]
    exact nofun
  case settle =>
    obtain ⟨m, hm⟩ := Option.isSome_iff_exists.1 h
    rw [atSettle, hm]
    exact nofun
  case trigWr =>
    obtain ⟨b, hb⟩ := Option.isSome_iff_exists.1 h
    rw [atTrigWr, hb]
    exact nofun
  case unbiasWr =>
    obtain ⟨b, hb⟩ := Option.isSome_iff_exists.1 h.1
    rw [atUnbiasWr, hb]
    exact nofun
  case result =>
    obtain ⟨ratio, hratio⟩ := Option.isSome_iff_exists.1 h.1
    obtain ⟨fault, hfault⟩ := Option.isSome_iff_exists.1 h.2
    rw [atResult, hratio, hfault]
    simp only [withReg_some]
    split <;> exact nofun

/-- A command that is no instruction does not fault. -/
theorem refuseCommand_no_fault (e : DecodeError) (s : State) (f : Fault) :
    refuseCommand e s ≠ .fault f := by
  unfold refuseCommand
  split
  · exact nofun
  · split <;> exact nofun

/-- No move of the host faults where the working registers are ready. -/
theorem hostMove_no_fault {s : State} (h : s.workReady) (m : HostMove) (f : Fault) :
    hostMove m s ≠ .fault f := by
  cases m with
  | call c =>
    simp only [hostMove, callCommand]
    split
    · exact refuseCommand_no_fault _ s f
    · exact exec_no_fault _ s f
  | issue c =>
    simp only [hostMove, issueCommand]
    split
    · exact refuseCommand_no_fault _ s f
    · exact accept_no_fault s _ f
    · exact accept_no_fault s _ f
    · exact exec_no_fault _ s f
  | wait => exact advance_no_fault h f
  | moveAway =>
    simp only [hostMove, moveInstance]
    split
    · exact nofun
    · split <;> exact nofun
  | destroy =>
    simp only [hostMove, destroyInstance]
    split
    · exact nofun
    · split <;> exact nofun
  | create =>
    simp only [hostMove, createInstance]
    split <;> exact nofun

/-- No step faults where the working registers are ready (R22; D20). -/
theorem step_no_fault {s : State} (h : s.workReady) (f : Fault) : step s ≠ .fault f := by
  unfold step
  split
  · exact nofun
  · split
    · exact advance_no_fault h f
    · exact hostMove_no_fault (by exact h) _ f

/-- Settles O45: the invariant's working registers are what the positions read; without its register a
position faults at `withReg`. -/
theorem workingRegistersAreNeverReadUnwritten : Obligations.WorkingRegistersAreNeverReadUnwritten := by
  refine ⟨fun s f hs => step_no_fault ((State.inv_iff s).1 hs).2 f, fun s hrefused hinbox => ?_⟩
  rw [step_no_move hrefused hinbox]
  refine ⟨fun hreg hseq => ?_, fun hreg hseq => ?_, fun hreg hseq => ?_, fun hfault hreg hseq => ?_,
    fun hfault _ hseq => ?_⟩
  · obtain hseq | hseq | hseq := hseq
    · simp only [advance, hseq, atBiasWr, hreg, withReg_none]
    · simp only [advance, hseq, atTrigWr, hreg, withReg_none]
    · simp only [advance, hseq, atUnbiasWr, hreg, withReg_none]
  · simp only [advance, hseq, atSettle, hreg, withReg_none]
  · simp only [advance, hseq, atResult, hreg, withReg_none]
  · simp [advance, hseq, atResult, hfault, hreg, rtdFaulted]
  · simp only [advance, hseq, atResult_fault hfault, returnRead_none]

end Sys2Proof.Machine

/-! PROOFS. What an instance accepts and refuses, what the host's moves do, and what INIT and DEINIT store. -/

namespace Sys2Proof.Machine

/-! ### Accepting and refusing -/

/-- A destroyed instance has no meaning (log 12). -/
theorem accept_destroyed {s : State} (h : s.destroyed = true) (run : State → State) :
    accept s run = .refused .instanceDestroyed := by
  simp [accept, h]

/-- A refused instance has no further meaning (R126). -/
theorem accept_refused {s : State} (hd : s.destroyed = false) (hr : s.refused = true)
    (run : State → State) : accept s run = .refused .refusedInstance := by
  simp [accept, hd, hr]

/-- A moved-from instance refuses a command (R126 c). -/
theorem accept_movedFrom {s : State} (hd : s.destroyed = false) (hr : s.refused = false)
    (hl : s.live = false) (run : State → State) : accept s run = .next (refuse .movedFrom s) := by
  simp [accept, hd, hr, hl]

/-- An instance with an operation in progress refuses a command (R126 a). -/
theorem accept_busy {s : State} (hd : s.destroyed = false) (hr : s.refused = false)
    (hl : s.live = true) (hb : s.seq ≠ .idle) (run : State → State) :
    accept s run = .next (refuse .concurrentCall s) := by
  simp [accept, hd, hr, hl, hb]

/-- Settles O31: every operation is behind the same acceptance. -/
theorem commandsToUnreadyInstancesAreRefused : Obligations.CommandsToUnreadyInstancesAreRefused :=
  fun i s hd hr => ⟨fun hl => exec_eq_accept i s ▸ accept_movedFrom hd hr hl _,
    fun hl hb => exec_eq_accept i s ▸ accept_busy hd hr hl hb _⟩

/-- Settles O33: the mark is the first thing a step asks, and the second an operation does. -/
theorem refusedInstancesStayRefused : Obligations.RefusedInstancesStayRefused :=
  fun s hr => ⟨by simp [step, hr], fun i hd => exec_eq_accept i s ▸ accept_refused hd hr _⟩

/-- A command to a destroyed instance has no meaning, called or issued (log 12). -/
theorem command_destroyed {s : State} (h : s.destroyed = true) (c : Command) :
    callCommand c s = .refused .instanceDestroyed ∧ issueCommand c s = .refused .instanceDestroyed := by
  have hexec (i : Instr) : exec i s = .refused .instanceDestroyed :=
    exec_eq_accept i s ▸ accept_destroyed h _
  constructor
  · unfold callCommand
    split
    · simp [refuseCommand, h]
    · exact hexec _
  · unfold issueCommand
    split
    · simp [refuseCommand, h]
    · exact accept_destroyed h _
    · exact accept_destroyed h _
    · exact hexec _

/-- Settles O53: each of these moves asks first for what is missing here. -/
theorem openHostMovesStop : Obligations.OpenHostMovesStop := by
  refine ⟨fun s rest hr => ⟨fun hi hd hb => ?_, fun m hi hd hm => ?_, fun hi hgone => ?_⟩,
    fun i s hd => exec_eq_accept i s ▸ accept_destroyed hd _⟩
  · rw [step_move hr hi]
    simp [hostMove, moveInstance, hd, hb]
  · rw [step_move hr hi]
    obtain rfl | rfl | ⟨c, rfl | rfl⟩ := hm
    · simp [hostMove, moveInstance, hd]
    · simp [hostMove, destroyInstance, hd]
    · exact (command_destroyed (by exact hd) c).1
    · exact (command_destroyed (by exact hd) c).2
  · rw [step_move hr hi]
    obtain hd | hl := hgone
    · simp [hostMove, createInstance, hd]
    · simp [hostMove, createInstance, hl]

/-- Settles O34: each of these moves passes the tests that stand before it. -/
theorem movingDestroyingAndCreating : Obligations.MovingDestroyingAndCreating := by
  intro s rest hr
  refine ⟨fun hi hd hidle => ?_, fun hi hd hidle => ?_, fun hi hd hbusy => ?_, fun hi hd hl => ?_⟩
  · rw [step_move hr hi]
    simp [hostMove, moveInstance, hd, hidle]
  · rw [step_move hr hi]
    simp [hostMove, destroyInstance, hd, hidle]
  · rw [step_move hr hi]
    simp [hostMove, destroyInstance, hd, hbusy, refuse]
  · refine ⟨resetBlock { s with inbox := rest }, ?_, rfl, rfl, rfl, rfl, ⟨rfl, rfl, rfl, rfl, rfl⟩,
      rfl, rfl, rfl, rfl, rfl, rfl, rfl⟩
    rw [step_move hr hi]
    simp [hostMove, createInstance, hd, hl]

/-! ### Calling and issuing -/

/-- A step takes a blocking call of a command that decodes and runs its instruction (R97). -/
theorem step_call {s : State} {c : Command} {i : Instr} {rest : List HostMove}
    (hr : s.refused = false) (hi : s.inbox = .call c :: rest) (hc : decode c = .ok i) :
    step s = exec i { s with inbox := rest } := by
  rw [step_move hr hi]
  simp [hostMove, callCommand, hc]

/-- A table word that decodes is a command that does. -/
theorem decode_of_decodeTableWord {nbits w : Nat} {i : Instr} (h : decodeTableWord nbits w = some i) :
    decode (Command.ofTableWord nbits w) = .ok i := by
  unfold decodeTableWord at h
  split at h
  · split at h
    case h_1 j hj => exact hj.trans (congrArg _ (Option.some.inj h))
    case h_2 => cases h
  · cases h

/-- Settles O39: a table word is a blocking call in front of the host's moves. -/
theorem stepRunsTheDecodedCommand : Obligations.StepRunsTheDecodedCommand :=
  ⟨fun _ _ _ _ hr hi hc => step_call hr hi hc,
    fun nbits w _ s hr hw =>
      step_call (s := s.withFetchWord nbits w) (rest := s.inbox) hr rfl (decode_of_decodeTableWord hw)⟩

/-- An issued operation that is no read runs whole (R23). -/
theorem issueCommand_other {c : Command} {i : Instr} (hc : decode c = .ok i) (hraw : i ≠ .readRaw)
    (hscaled : i ≠ .readScaled) (s : State) : issueCommand c s = exec i s := by
  unfold issueCommand
  rw [hc]
  split <;> simp_all

/-- An issued read starts position by position, if it is accepted (R115). -/
theorem issueCommand_read {c : Command} {i : Instr} (hc : decode c = .ok i)
    (hi : i = .readRaw ∨ i = .readScaled) (s : State) :
    issueCommand c s = accept s (startRead (decide (i = .readScaled))) := by
  obtain rfl | rfl := hi <;> simp [issueCommand, hc]

/-- Settles O40: a read is accepted or refused as every operation is. -/
theorem issuedCommandsStartOrRun : Obligations.IssuedCommandsStartOrRun := by
  intro c i rest s hr hi hc
  rw [step_move hr hi, hostMove]
  refine ⟨fun hraw hscaled => issueCommand_other hc hraw hscaled _, fun ready hread => ?_,
    fun ready hread => ?_, fun hread hd hl => ?_, fun hread hd hl hb => ?_⟩
  · subst hread
    rw [issueCommand_read hc (.inl rfl), accept_ready (by exact ready)]
    rfl
  · subst hread
    rw [issueCommand_read hc (.inr rfl), accept_ready (by exact ready)]
    rfl
  · rw [issueCommand_read hc hread, accept_movedFrom (by exact hd) (by exact hr) (by exact hl)]
    rfl
  · rw [issueCommand_read hc hread, accept_busy (by exact hd) (by exact hr) (by exact hl) (by exact hb)]
    rfl

/-! ### INIT and DEINIT -/

/-- The CONFIG byte INIT writes, its fields side by side (R98, R99). -/
theorem cfgEnc_initConfig (nw : Bit) (fd : BitVec 2) (fc fl cm : Bit) :
    cfgEnc (initConfig nw fd fc fl cm) =
      (0#1 ++ cm ++ 0#1 ++ nw ++ fd ++ fc ++ fl : BitVec 8) :=
  cfgEnc_eq_append _

/-- INIT's writes store the CONFIG byte (R98). -/
theorem initWrites_byteAt_config (tmin tmax : S16) (c : CfgRecord) (s : State) :
    (initWrites tmin tmax c s).byteAt Config.addrConfig.toNat = some (cfgEnc c) := by
  simp [State.byteAt, initWrites, Config.addrConfig, Config.addrHighFault, Config.addrLowFault,
    Memory.read_write_same, Memory.read_write_other]

/-- INIT's writes leave every other register (R98). -/
theorem initWrites_byteAt_other (tmin tmax : S16) (c : CfgRecord) (s : State) {a : Nat}
    (hc : a ≠ Config.addrConfig.toNat) (hh : a ≠ Config.addrHighFault.toNat)
    (hh' : a ≠ Config.addrHighFault.toNat + 1) (hl : a ≠ Config.addrLowFault.toNat)
    (hl' : a ≠ Config.addrLowFault.toNat + 1) :
    (initWrites tmin tmax c s).byteAt a = s.byteAt a := by
  simp [State.byteAt, initWrites, Memory.read_write_other, hc, hh, hh', hl, hl']

/-- Settles O9: INIT is its three writes, the flag and OK; the writes go to different registers. -/
theorem initWritesThreeRegistersInOrder : Obligations.InitWritesThreeRegistersInOrder := by
  intro tmin tmax nw fd fc fl cm s ready
  obtain ⟨h3, h4, h5, h6⟩ := initWrites_byteAt_thresholds tmin tmax (initConfig nw fd fc fl cm) s
  refine ⟨effect (.init tmin tmax nw fd fc fl cm) s, exec_ready ready _, ?_, ?_, h3, h4, h5, h6⟩
  · rw [← cfgEnc_initConfig]
    exact congrArg (fun u => finish .ok { u with initialized := true }) (initWrites_after ..)
  · rw [← cfgEnc_initConfig]
    exact initWrites_byteAt_config ..

/-- Settles O10: an INIT that ran leaves the other registers, and a refused one leaves them all. -/
theorem initStoresNowhereElse : Obligations.InitStoresNowhereElse := by
  intro tmin tmax nw fd fc fl cm s t h a hc hh hh' hl hl'
  obtain ⟨-, rfl⟩ | ⟨-, -, -, reason, rfl⟩ := exec_next h
  · exact initWrites_byteAt_other tmin tmax (initConfig nw fd fc fl cm) s hc hh hh' hl hl'
  · rfl

/-- Settles O12: a second DEINIT starts from the state it ends in, and a READ_RAW after it is O14's. -/
theorem deinitClearsTheFlagAndNothingElse : Obligations.DeinitClearsTheFlagAndNothingElse := by
  intro s ready
  have ⟨hd, hr, hl, _⟩ := ready
  have ready' : State.Ready { s.endsWith .ok with initialized := false } := ⟨hd, hr, hl, rfl⟩
  exact ⟨_, exec_deinit_ready ready, rfl, exec_deinit_ready ready',
    readRawUninitializedReturnsNone _ ready' rfl⟩

/-- Settles O49: the code is all INIT sees of the selector, and CFG_DEC tells the two bytes apart. -/
theorem twoAndFourWiresAreOneValue : Obligations.TwoAndFourWiresAreOneValue := by
  refine ⟨rfl, rfl, rfl, fun tmin tmax fd fc fl cm s ready => ⟨rfl, effect _ s, effect _ s,
    exec_ready ready _, exec_ready ready _, fun hsame => ?_⟩⟩
  have hbyte : cfgEnc (initConfig (wiringCode .two) fd fc fl cm) =
      cfgEnc (initConfig (wiringCode .three) fd fc fl cm) :=
    Option.some.inj ((initWrites_byteAt_config ..).symm.trans
      (hsame.trans (initWrites_byteAt_config ..)))
  have hwires := congrArg (fun b => (cfgDec b).nwires) hbyte
  simp only [cfgDec_cfgEnc] at hwires
  exact absurd hwires (show wiringCode .two ≠ wiringCode .three by decide)

/-- Settles O52: CFG_DEC reads back the record INIT encoded. -/
theorem fieldCodesReachConfig : Obligations.FieldCodesReachConfig := by
  refine ⟨rfl, rfl, rfl, rfl, rfl, rfl, rfl, rfl, rfl, rfl, fun tmin tmax w fd fc fl cm s ready => ?_⟩
  refine ⟨effect _ s, _, exec_ready ready _, initWrites_byteAt_config .., ?_⟩
  rw [cfgDec_cfgEnc]
  exact ⟨rfl, rfl, rfl, rfl, rfl⟩

/-- Settles O41: each value is the one written down in `State.reset` and `Config`. -/
theorem resetAndParameters : Obligations.ResetAndParameters :=
  ⟨rfl, rfl, rfl, rfl, ⟨rfl, rfl, rfl, rfl, rfl⟩, rfl, fun _ => rfl, ⟨rfl, rfl, rfl, rfl⟩,
    rfl, rfl, rfl, rfl, rfl, rfl, rfl, rfl, rfl, rfl, rfl, rfl, rfl⟩

end Sys2Proof.Machine

/-! PROOFS. READ_RAW and READ_SCALED in particular: what the trace tells of a path, what is left in CONFIG,
and the whole next state where the device's answers are given. -/

namespace Sys2Proof.Machine

/-! ### What the trace tells -/

/-- In AUTO mode, which the first read shows, step 4 follows step 2 (R110). -/
theorem readRawSequence_auto {s : State} (hinit : s.initialized = true)
    (hmode : isOneshotMode (cfgDec (readByte s Config.addrConfig).1).convMode = false) :
    ∃ d k m, readRawSequence true s =
      completionSteps (s.after d k m (biasEvents (readByte s Config.addrConfig).1)) := by
  obtain ⟨d, hread⟩ := readByte_spec s Config.addrConfig
  change _ = s.after d (s.draws + 1) s.mem [.rd Config.addrConfig [_]] at hread
  obtain ⟨m, hdelay, -⟩ := delay_of_after s d (s.draws + 1)
    (Memory.write s.mem Config.addrConfig.toNat
      (biasEnableByte (readByte s Config.addrConfig).1))
    [.rd Config.addrConfig [(readByte s Config.addrConfig).1],
     .wr Config.addrConfig [biasEnableByte (readByte s Config.addrConfig).1]] Config.tBiasMs
  refine ⟨d, s.draws + 1, m, ?_⟩
  simp [readRawSequence, hinit, biasStep, hmode, hread, hdelay, biasEvents]

/-- Settles O21: step 4's read follows step 2's delay, and step 6's byte keeps `oneshot`. -/
theorem autoModeOmitsTriggerAndConversionDelay : Obligations.AutoModeOmitsTriggerAndConversionDelay := by
  intro s t c0 ready hinit hc0 hauto h
  obtain rfl : _ = t := Host.Outcome.next.inj ((exec_ready ready .readRaw).symm.trans h)
  obtain ⟨d, k, m, hseq⟩ := readRawSequence_auto hinit (by rw [hc0, hauto]; rfl)
  have htrace : (effect .readRaw s).trace = (readRawSequence true s).2.trace := rfl
  have hend := completionSteps_endsFrom s d k m (biasEvents (readByte s Config.addrConfig).1)
  rw [← hseq, hc0] at hend
  have hw : (cfgDec (biasEnableByte c0)).oneshot = 0 := by rw [biasEnableByte, cfgDec_cfgEnc]
  rw [htrace]
  obtain ⟨c2, d, k, -, hr⟩ | ⟨c2, r0, r1, c3, d, k, -, hr⟩ := hend
  · exact ⟨biasEnableByte c0, c2, [], by rw [hr]; rfl, hw, .inl rfl⟩
  · refine ⟨biasEnableByte c0, c2, _, by rw [hr]; rfl, hw,
      .inr ⟨r0, r1, c3, biasDisableByte c3, rfl, ?_⟩⟩
    rw [biasDisableByte, cfgDec_cfgEnc]

/-- Where a path added these elements, its trace says so. -/
theorem after_trace_inj {s : State} {d : Device} {k : Nat} {m : Memory} {evs evs' : List Event}
    (h : (s.after d k m evs).trace = s.trace ++ evs') : evs = evs' :=
  List.append_cancel_left h

/-- A path that read RTD wrote CONFIG last with `vbias = 0` (R113). -/
theorem ReadPath.vbias_of_rtdRead {s : State} {r : Option S16 × State} (h : ReadPath s r)
    {evs : List Event} (htrace : r.2.trace = s.trace ++ evs) {r0 r1 : Byte}
    (hread : .rd Config.addrRtd [r0, r1] ∈ evs) :
    ∃ b, Memory.read? r.2.mem Config.addrConfig.toNat = some b ∧ b.getLsbD 7 = false := by
  cases h with
  | uninitialized =>
    obtain rfl := List.append_cancel_left ((List.append_nil s.trace).trans htrace)
    cases hread
  | oneshotPending | autoPending =>
    rw [← after_trace_inj htrace] at hread
    simp [rdRtd_notMem_biasEvents, rdRtd_notMem_triggerEvents, addrRtd_ne_addrConfig] at hread
  | oneshotFinished | autoFinished =>
    exact ⟨_, Memory.read_write_same .., by simp [biasDisableByte_eq]⟩

/-- A path of step 2 and one more read is P3, which leaves the byte of step 2 (R105, R111). -/
theorem ReadPath.vbias_of_autoPending {s : State} {r : Option S16 × State} (h : ReadPath s r)
    {c0 w c2 : Byte}
    (htrace : r.2.trace = s.trace ++ [.rd Config.addrConfig [c0], .wr Config.addrConfig [w],
      .dly Config.tBiasMs, .rd Config.addrConfig [c2]]) :
    ∃ b, Memory.read? r.2.mem Config.addrConfig.toNat = some b ∧ b.getLsbD 7 = true := by
  cases h with
  | uninitialized => simp at htrace
  | oneshotPending | oneshotFinished | autoFinished =>
    simpa [biasEvents, triggerEvents, readoutEvents] using after_trace_inj htrace
  | autoPending _ c0 c2 d k m _ _ hm =>
    obtain ⟨b, hb, hbit⟩ := Memory.delayed_write hm
    exact ⟨b, hb, hbit.trans (by simp [biasEnableByte_eq])⟩

/-- A path of step 2, step 3 and one more read is P1, which leaves the trigger byte, and so the `vbias` of the
step 3 read (R108; log 20). -/
theorem ReadPath.vbias_of_oneshotPending {s : State} {r : Option S16 × State} (h : ReadPath s r)
    {c0 w c1 w' c2 : Byte}
    (htrace : r.2.trace = s.trace ++ [.rd Config.addrConfig [c0], .wr Config.addrConfig [w],
      .dly Config.tBiasMs, .rd Config.addrConfig [c1], .wr Config.addrConfig [w'],
      .dly Config.tConvMs, .rd Config.addrConfig [c2]]) :
    ∃ b, Memory.read? r.2.mem Config.addrConfig.toNat = some b ∧ b.getLsbD 7 = c1.getLsbD 7 := by
  cases h with
  | uninitialized => simp at htrace
  | oneshotFinished | autoPending | autoFinished =>
    simpa [biasEvents, triggerEvents, readoutEvents] using after_trace_inj htrace
  | oneshotPending _ b0 b1 b2 d k m _ _ hm =>
    have hevs := after_trace_inj htrace
    simp only [biasEvents, triggerEvents, List.cons_append, List.nil_append, List.cons.injEq,
      Event.rd.injEq, true_and, and_true] at hevs
    obtain ⟨-, -, rfl, -⟩ := hevs
    obtain ⟨b, hb, hbit⟩ := Memory.delayed_write hm
    exact ⟨b, hb, hbit.trans (by simp [triggerByte_eq])⟩

/-- Settles O23: path by path, the last CONFIG write is the byte of step 6, of step 2 or of step 3. -/
theorem biasAfterEachPath : Obligations.BiasAfterEachPath := by
  intro s t ready _ h
  obtain ⟨p, hpath, hexec⟩ := exec_readRaw_path ready
  obtain rfl : _ = t := Host.Outcome.next.inj (hexec.symm.trans h)
  exact ⟨fun pre post r0 r1 htrace => hpath.vbias_of_rtdRead htrace (r0 := r0) (r1 := r1) (by simp),
    fun c0 w c2 htrace => hpath.vbias_of_autoPending htrace,
    fun c0 w c1 w' c2 htrace => hpath.vbias_of_oneshotPending htrace⟩

/-- Elements that end in a read tell that the conversion was not finished (R124). -/
theorem noneCause_rd (pre : List Event) (a : Byte) (bs : List Byte) :
    noneCause (pre ++ [.rd a bs]) = .notDone := by
  simp [noneCause]

/-- Elements that end in a readout tell an RTD fault (R124). -/
theorem noneCause_readout (pre : List Event) (c r0 r1 c' : Byte) :
    noneCause (pre ++ readoutEvents c r0 r1 c') = .rtdFault := by
  simp [noneCause, readoutEvents]

/-- The last three elements of a readout, the byte of step 6 as a mask (R112, R113). -/
theorem append_readoutEvents (pre : List Event) (c r0 r1 c' : Byte) :
    pre ++ readoutEvents c r0 r1 c' =
      (pre ++ [.rd Config.addrConfig [c]]) ++ [.rd Config.addrRtd [r0, r1],
        .rd Config.addrConfig [c'], .wr Config.addrConfig [c' &&& 0x7F]] := by
  simp [readoutEvents, biasDisableByte_eq]

/-- A readout that returns NONE read a set fault flag (R114). -/
theorem fault_of_noValue {ratio : Ratio} {fault : Bit}
    (h : rawResult (stepSeven ratio fault) = .noValue) : fault = 1 := by
  unfold stepSeven at h
  split at h
  case isTrue hfault => exact eq_of_beq hfault
  case isFalse => cases h

/-- Settles O25: the elements of P0, of P1 and P3, and of P2 and P4 end differently. -/
theorem traceTellsTheCauseOfNone : Obligations.TraceTellsTheCauseOfNone := by
  intro s t ready h hnone
  obtain ⟨p, hpath, hexec⟩ := exec_readRaw_path ready
  obtain rfl : _ = t := Host.Outcome.next.inj (hexec.symm.trans h)
  rw [finish_outcome, Option.some.injEq, OpOutcome.returned.injEq] at hnone
  cases hpath with
  | uninitialized hinit => exact ⟨[], (List.append_nil _).symm, hinit, rfl⟩
  | oneshotPending hinit c0 c1 c2 d k m _ hdone =>
    refine ⟨_, rfl, ?_⟩
    rw [noneCause_rd]
    refine ⟨hinit, fun r0 r1 => ?_, _, c2, rfl, eq_of_beq hdone⟩
    simp [rdRtd_notMem_biasEvents, rdRtd_notMem_triggerEvents, addrRtd_ne_addrConfig]
  | autoPending hinit c0 c2 d k m _ hdone =>
    refine ⟨_, rfl, ?_⟩
    rw [noneCause_rd]
    refine ⟨hinit, fun r0 r1 => ?_, _, c2, rfl, eq_of_beq hdone⟩
    simp [rdRtd_notMem_biasEvents, addrRtd_ne_addrConfig]
  | oneshotFinished hinit c0 c1 c2 c3 r0 r1 =>
    refine ⟨_, rfl, ?_⟩
    rw [noneCause_readout]
    exact ⟨hinit, _, r0, r1, c3, append_readoutEvents .., fault_of_noValue hnone⟩
  | autoFinished hinit c0 c2 c3 r0 r1 =>
    refine ⟨_, rfl, ?_⟩
    rw [noneCause_readout]
    exact ⟨hinit, _, r0, r1, c3, append_readoutEvents .., fault_of_noValue hnone⟩

/-! ### READ_SCALED -/

/-- Settles O26: both reads are the one sequence, and only the result's form differs. -/
theorem readScaledIsReadRawConverted : Obligations.ReadScaledIsReadRawConverted := by
  intro s ready
  refine ⟨_, _, exec_ready ready .readRaw, exec_ready ready .readScaled, ?_⟩
  simp only [effect]
  cases (readRawSequence Config.autoRecheck s).1 with
  | none => exact .inl ⟨rfl, rfl⟩
  | some v => exact .inr ⟨v, rfl, rfl⟩

/-! ### Given answers -/

/-- A scripted byte is the answer to a 1-byte read (R42, R44). -/
theorem readByte_oracle {s : State} {b : Byte} {rest : List Byte} (h : s.device = .oracle (b :: rest))
    (addr : Byte) :
    readByte s addr = (b, s.after (.oracle rest) (s.draws + 1) s.mem [.rd addr [b]]) := by
  simp [readByte, answerByte, h, emit, State.after]

/-- Two scripted bytes are the answer to a 2-byte read (R42, R44). -/
theorem readPair_oracle {s : State} {b0 b1 : Byte} {rest : List Byte}
    (h : s.device = .oracle (b0 :: b1 :: rest)) (addr : Byte) :
    readPair s addr =
      ((b0, b1), s.after (.oracle rest) (s.draws + 2) s.mem [.rd addr [b0, b1]]) := by
  simp [readPair, answerPair, answerByte, h, emit, State.after]

/-- A scripted device does not react to a delay. -/
theorem delay_oracle {s : State} {l : List Byte} (h : s.device = .oracle l) (ms : Nat) :
    delay s ms = s.after (.oracle l) s.draws s.mem [.dly ms] := by
  simp [delay, refDevDelay_oracle s h, emit, State.after, h]

/-- Step 2 on a given answer (R105, R106). -/
theorem biasStep_oracle {s : State} {c : Byte} {rest : List Byte}
    (h : s.device = .oracle (c :: rest)) :
    biasStep s = ((cfgDec c).convMode, s.after (.oracle rest) (s.draws + 1)
      (Memory.write s.mem Config.addrConfig.toNat (biasEnableByte c)) (biasEvents c)) := by
  simp [biasStep, readByte_oracle h, delay_oracle (after_device ..), biasEvents]

/-- Step 3 on a given answer (R108, R109). -/
theorem triggerStep_oracle {s : State} {c : Byte} {rest : List Byte}
    (h : s.device = .oracle (c :: rest)) :
    triggerStep s = s.after (.oracle rest) (s.draws + 1)
      (Memory.write s.mem Config.addrConfig.toNat (triggerByte c)) (triggerEvents c) := by
  simp [triggerStep, readByte_oracle h, delay_oracle (after_device ..), triggerEvents]

/-- Step 4 on a given answer that shows `oneshot` still set (R111). -/
theorem completionSteps_oracle_pending {s : State} {c : Byte} {rest : List Byte}
    (h : s.device = .oracle (c :: rest)) (hc : notFinished c = true) :
    completionSteps s = (none, s.after (.oracle rest) (s.draws + 1) s.mem
      [.rd Config.addrConfig [c]]) := by
  simp [completionSteps, readByte_oracle h, hc]

/-- Steps 4 to 7 on given answers (R111 to R114). -/
theorem completionSteps_oracle_finished {s : State} {c r0 r1 c' : Byte} {rest : List Byte}
    (h : s.device = .oracle (c :: r0 :: r1 :: c' :: rest)) (hc : notFinished c = false) :
    completionSteps s = (stepSeven (rtdDec r0 r1).1 (rtdDec r0 r1).2,
      s.after (.oracle rest) (s.draws + 4)
        (Memory.write s.mem Config.addrConfig.toNat (biasDisableByte c'))
        (readoutEvents c r0 r1 c')) := by
  simp [completionSteps, readoutSteps, readByte_oracle h, hc,
    readPair_oracle (after_device ..), readByte_oracle (after_device ..), readoutEvents]

/-- A ready READ_RAW whose sequence is known. -/
theorem exec_readRaw_of_sequence {s : State} (ready : s.Ready) {v : Option S16} {d : Device} {k : Nat}
    {m : Memory} {evs : List Event} (h : readRawSequence true s = (v, s.after d k m evs)) :
    exec .readRaw s = .next { s.endsWith (rawResult v) with
      device := d, draws := k, mem := m, trace := s.trace ++ evs } := by
  have heffect : effect .readRaw s =
      finish (rawResult (readRawSequence true s).1) (readRawSequence true s).2 := rfl
  rw [exec_ready ready, heffect, h]
  rfl

/-- ONESHOT mode on an answer that shows bit 6 clear (R65). -/
theorem isOneshotMode_of_bit {b : Byte} (h : b.getLsbD 6 = false) :
    isOneshotMode (cfgDec b).convMode = true := by
  rw [isOneshotMode_cfgDec, h]
  rfl

/-- AUTO mode on an answer that shows bit 6 set (R65). -/
theorem isAutoMode_of_bit {b : Byte} (h : b.getLsbD 6 = true) :
    isOneshotMode (cfgDec b).convMode = false := by
  rw [isOneshotMode_cfgDec, h]
  rfl

/-- Settles O16: steps 2, 3, 4 and the readout on their answers. -/
theorem readRawOneshotFinished : Obligations.ReadRawOneshotFinished := by
  intro s c0 c1 c2 c3 r0 r1 rest ready hinit hdevice hmode hdone
  have hseq : readRawSequence true s = (stepSeven (rtdDec r0 r1).1 (rtdDec r0 r1).2,
      s.after (.oracle rest) (s.draws + 6)
        (Memory.write s.mem Config.addrConfig.toNat (biasDisableByte c3))
        (biasEvents c0 ++ triggerEvents c1 ++ readoutEvents c2 r0 r1 c3)) := by
    simp [readRawSequence, hinit, biasStep_oracle hdevice, isOneshotMode_of_bit hmode,
      triggerStep_oracle (after_device ..), Memory.write_write_same,
      completionSteps_oracle_finished (after_device ..) ((notFinished_eq c2).trans hdone)]
  rw [exec_readRaw_of_sequence ready hseq, rawResult_stepSeven]
  simp [biasEvents, triggerEvents, readoutEvents, biasEnableByte_eq, triggerByte_eq, biasDisableByte_eq]

/-- Settles O17: steps 2, 3 and 4 on their answers. -/
theorem readRawOneshotNotFinished : Obligations.ReadRawOneshotNotFinished := by
  intro s c0 c1 c2 rest ready hinit hdevice hmode hdone
  have hseq : readRawSequence true s = (none, s.after (.oracle rest) (s.draws + 3)
      (Memory.write s.mem Config.addrConfig.toNat (triggerByte c1))
      (biasEvents c0 ++ triggerEvents c1 ++ [.rd Config.addrConfig [c2]])) := by
    simp [readRawSequence, hinit, biasStep_oracle hdevice, isOneshotMode_of_bit hmode,
      triggerStep_oracle (after_device ..), Memory.write_write_same,
      completionSteps_oracle_pending (after_device ..) ((notFinished_eq c2).trans hdone)]
  rw [exec_readRaw_of_sequence ready hseq]
  simp [biasEvents, triggerEvents, biasEnableByte_eq, triggerByte_eq, rawResult]

/-- Settles O18: steps 2 and 4, and the readout, on their answers. -/
theorem readRawAutoPaths : Obligations.ReadRawAutoPaths := by
  intro s c0 c2 rest ready hinit hdevice hmode
  refine ⟨fun hdone => ?_, fun c3 r0 r1 rest' hdone hrest => ?_⟩
  · have hseq : readRawSequence true s = (none, s.after (.oracle rest) (s.draws + 2)
        (Memory.write s.mem Config.addrConfig.toNat (biasEnableByte c0))
        (biasEvents c0 ++ [.rd Config.addrConfig [c2]])) := by
      simp [readRawSequence, hinit, biasStep_oracle hdevice, isAutoMode_of_bit hmode,
        completionSteps_oracle_pending (after_device ..) ((notFinished_eq c2).trans hdone)]
    rw [exec_readRaw_of_sequence ready hseq]
    simp [biasEvents, biasEnableByte_eq, rawResult]
  · subst hrest
    have hseq : readRawSequence true s = (stepSeven (rtdDec r0 r1).1 (rtdDec r0 r1).2,
        s.after (.oracle rest') (s.draws + 5)
          (Memory.write s.mem Config.addrConfig.toNat (biasDisableByte c3))
          (biasEvents c0 ++ readoutEvents c2 r0 r1 c3)) := by
      simp [readRawSequence, hinit, biasStep_oracle hdevice, isAutoMode_of_bit hmode,
        Memory.write_write_same,
        completionSteps_oracle_finished (after_device ..) ((notFinished_eq c2).trans hdone)]
    rw [exec_readRaw_of_sequence ready hseq, rawResult_stepSeven]
    simp [biasEvents, readoutEvents, biasEnableByte_eq, biasDisableByte_eq]

end Sys2Proof.Machine

/-! PROOFS. The sequencer: the rows of 41_sequencer.md section 5 one by one, and that thirteen steps give the
whole operation. -/

namespace Sys2Proof.Machine

/-! ### The rows -/

/-- Settles O29: each of the five positions that read, with its working registers. -/
theorem sequencerReadPositions : Obligations.SequencerReadPositions := by
  intro s hrefused hinbox
  rw [step_no_move hrefused hinbox]
  refine ⟨fun hseq => ?_, fun hseq => ?_, fun hseq => ?_, fun hseq => ?_, fun hseq => ?_⟩
  · obtain ⟨b, d, hnext⟩ := advance_biasRd hseq
    exact ⟨_, b, hnext, rfl, rfl, rfl, congrArg some (cfgDec_convMode b)⟩
  · obtain ⟨b, d, hnext⟩ := advance_trigRd hseq
    exact ⟨_, b, hnext, rfl, rfl, rfl, rfl⟩
  · obtain ⟨b, d, ⟨hb, hnext⟩ | ⟨hb, hnext⟩⟩ := advance_doneRd hseq
    · rw [returnRead_none] at hnext
      refine ⟨_, b, hnext, rfl, ?_⟩
      rw [if_pos ((notFinished_eq b).symm.trans hb)]
      exact ⟨rfl, rfl, rfl, rfl, rfl, rfl, rfl⟩
    · refine ⟨_, b, hnext, rfl, ?_⟩
      rw [if_neg (by rw [← notFinished_eq, hb]; exact Bool.false_ne_true)]
      exact ⟨rfl, rfl, rfl, rfl⟩
  · obtain ⟨r0, r1, d, hnext⟩ := advance_rtdRd hseq
    exact ⟨_, r0, r1, hnext, rfl, rfl, congrArg some (rtdDec_ratio_eq r0 r1),
      congrArg some (rtdDec_fault r0 r1)⟩
  · obtain ⟨b, d, hnext⟩ := advance_unbiasRd hseq
    exact ⟨_, b, hnext, rfl, rfl, rfl, rfl, rfl⟩

/-- Where settling leads, by the mode's code (R65, R107, R110). -/
theorem afterSettle_eq (mode : Bit) :
    afterSettle true mode = if mode = 1 then .doneRd else .trigRd := by
  revert mode
  decide

/-- A delay changes the register file and the trace. -/
theorem delay_eq (s : State) (ms : Nat) :
    delay s ms = { s with mem := (delay s ms).mem, trace := s.trace ++ [.dly ms] } := by
  obtain ⟨m, h, -⟩ := delay_spec s ms
  rw [h]

/-- `S_RESULT` with a ratio and a flag returns step 7's value (R114, R117). -/
theorem atResult_eq {s : State} {ratio : Ratio} {fault : Bit} (hr : s.rtdRatio = some ratio)
    (hf : s.rtdFault = some fault) : atResult s = .next (returnRead (stepSeven ratio fault) s) := by
  rw [atResult, hf, withReg_some, stepSeven]
  split
  · rfl
  · rw [hr, withReg_some]

/-- The value of a read in progress with a ratio and a flag, in the form of that read (R72, R114, R117). -/
theorem returnRead_stepSeven (ratio : Ratio) (fault : Bit) (s : State) :
    returnRead (stepSeven ratio fault) s = s.endsWith
      (if fault = 1 then .noValue
        else if s.scaled then .scaled (toBinary32 (0#1 ++ ratio : BitVec 16))
        else .raw (0#1 ++ ratio : BitVec 16)) := by
  by_cases hf : fault = 1
  · rw [if_pos hf, hf, stepSeven_fault, returnRead_none]
  · have hv : stepSeven ratio fault = some (0#1 ++ ratio : BitVec 16) := by
      rw [stepSeven, rtdFaulted, if_neg (by simpa using hf), ratioResult_eq_append]
    rw [if_neg hf, hv, returnRead]
    rfl

/-- `S_BIAS_WR` writes step 2's byte of `c_work` (R105). -/
theorem advance_biasWr {s : State} {b : Byte} (hseq : s.seq = .biasWr) (hb : s.cWork = some b) :
    advance true s = .next { memWrite s Config.addrConfig [biasEnableByte b] with seq := .settle } := by
  simp only [advance, hseq]
  rw [atBiasWr, hb, withReg_some]

/-- `S_SETTLE` delays and goes where the mode leads (R106, R107, R110). -/
theorem advance_settle {s : State} {mode : Bit} (hseq : s.seq = .settle) (hm : s.modeL = some mode) :
    advance true s = .next { delay s Config.tBiasMs with seq := afterSettle true mode } := by
  simp only [advance, hseq]
  rw [atSettle, hm, withReg_some]

/-- `S_TRIG_WR` writes step 3's byte of `c_work` (R108). -/
theorem advance_trigWr {s : State} {b : Byte} (hseq : s.seq = .trigWr) (hb : s.cWork = some b) :
    advance true s = .next { memWrite s Config.addrConfig [triggerByte b] with seq := .conv } := by
  simp only [advance, hseq]
  rw [atTrigWr, hb, withReg_some]

/-- `S_CONV` delays (R109). -/
theorem advance_conv {s : State} (hseq : s.seq = .conv) :
    advance true s = .next { delay s Config.tConvMs with seq := .doneRd } := by
  simp only [advance, hseq, atConv]

/-- `S_UNBIAS_WR` writes step 6's byte of `c_work` (R113). -/
theorem advance_unbiasWr {s : State} {b : Byte} (hseq : s.seq = .unbiasWr) (hb : s.cWork = some b) :
    advance true s = .next { memWrite s Config.addrConfig [biasDisableByte b] with seq := .result } := by
  simp only [advance, hseq]
  rw [atUnbiasWr, hb, withReg_some]

/-- `S_RESULT` with a ratio and a flag returns step 7's value (R114, R117). -/
theorem advance_result {s : State} {ratio : Ratio} {fault : Bit} (hseq : s.seq = .result)
    (hr : s.rtdRatio = some ratio) (hf : s.rtdFault = some fault) :
    advance true s = .next (returnRead (stepSeven ratio fault) s) := by
  simp only [advance, hseq, atResult_eq hr hf]

/-- Settles O30: each of the other rows, its transform as a mask. -/
theorem sequencerOtherPositions : Obligations.SequencerOtherPositions := by
  intro s hrefused hinbox
  rw [step_no_move hrefused hinbox]
  refine ⟨fun hseq => ?_, fun hseq hinit => ?_, fun hseq hinit => ?_, fun b hseq hb => ?_,
    fun m hseq hm => ?_, fun b hseq hb => ?_, fun hseq => ?_, fun b hseq hb => ?_,
    fun ratio fault hseq hratio hfault => ?_, fun hseq hfault => ?_⟩
  · simp only [advance, hseq]
  · simp [advance, hseq, atCheck, hinit, returnRead_none]
  · simp [advance, hseq, atCheck, hinit]
  · rw [Config.autoRecheck, advance_biasWr hseq hb, biasEnableByte_eq]
    rfl
  · rw [Config.autoRecheck, advance_settle hseq hm, afterSettle_eq, delay_eq]
  · rw [Config.autoRecheck, advance_trigWr hseq hb, triggerByte_eq]
    rfl
  · rw [Config.autoRecheck, advance_conv hseq, delay_eq]
  · rw [Config.autoRecheck, advance_unbiasWr hseq hb, biasDisableByte_eq]
    rfl
  · rw [Config.autoRecheck, advance_result hseq hratio hfault, returnRead_stepSeven]
  · simp only [advance, hseq, atResult_fault hfault, returnRead_none]

/-! ### The whole read, position by position -/

/-- `s` in the middle of a read: its position, whether it is a READ_SCALED, and the working registers. -/
def State.inRead (s : State) (scaled : Bool) (p : SeqPos) (m : Option Bit) (c : Option Byte)
    (r : Option Ratio) (f : Option Bit) : State :=
  { s with seq := p, scaled := scaled, modeL := m, cWork := c, rtdRatio := r, rtdFault := f }

section
variable (s : State) (sc : Bool) (p : SeqPos) (m : Option Bit) (c : Option Byte) (r : Option Ratio)
  (f : Option Bit)

/-- The device answers a byte whatever the working registers hold. -/
theorem answerByte_inRead (a : Nat) : answerByte (s.inRead sc p m c r f) a =
    ((answerByte s a).1, (answerByte s a).2.inRead sc p m c r f) := by
  unfold answerByte State.inRead
  cases s.device with
  | oracle l => cases l <;> rfl
  | refDev => rfl

/-- The device answers a pair whatever the working registers hold. -/
theorem answerPair_inRead (a : Nat) : answerPair (s.inRead sc p m c r f) a =
    ((answerPair s a).1, (answerPair s a).2.inRead sc p m c r f) := by
  have hdevice : (s.inRead sc p m c r f).device = s.device := rfl
  unfold answerPair
  rw [hdevice]
  cases s.device with
  | oracle => simp only [answerByte_inRead]
  | refDev =>
    simp only [answerByte_inRead]
    split <;> rfl

/-- A 1-byte read goes on whatever the working registers hold. -/
theorem readByte_inRead (addr : Byte) : readByte (s.inRead sc p m c r f) addr =
    ((readByte s addr).1, (readByte s addr).2.inRead sc p m c r f) := by
  simp only [readByte, answerByte_inRead]
  rfl

/-- A 2-byte read goes on whatever the working registers hold. -/
theorem readPair_inRead (addr : Byte) : readPair (s.inRead sc p m c r f) addr =
    ((readPair s addr).1, (readPair s addr).2.inRead sc p m c r f) := by
  simp only [readPair, answerPair_inRead]
  rfl

/-- RefDev reacts to a delay whatever the working registers hold. -/
theorem refDevDelay_inRead :
    refDevDelay (s.inRead sc p m c r f) = (refDevDelay s).inRead sc p m c r f := by
  have hdevice : (s.inRead sc p m c r f).device = s.device := rfl
  have htrace : (s.inRead sc p m c r f).trace = s.trace := rfl
  have hmem : (s.inRead sc p m c r f).mem = s.mem := rfl
  unfold refDevDelay
  rw [hdevice, htrace, hmem]
  split
  · rfl
  · split
    · split <;> rfl
    · rfl

/-- A delay goes on whatever the working registers hold. -/
theorem delay_inRead (ms : Nat) :
    delay (s.inRead sc p m c r f) ms = (delay s ms).inRead sc p m c r f := by
  rw [delay, refDevDelay_inRead]
  rfl

end

/-- A run goes on with the next state of a step. -/
theorem run_step {s t : State} (h : step s = .next t) (k : Nat) :
    Host.Core.run Sys2Proof.core (k + 1) s = Host.Core.run Sys2Proof.core k t := by
  have hstep : Sys2Proof.core.step s = .next t := h
  simp only [Host.Core.run, hstep]

/-- No move of the host is pending and the instance is not refused: a step is one position. -/
def State.Calm (s : State) : Prop := s.refused = false ∧ s.inbox = []

/-- A 1-byte read takes no move of the host. -/
theorem State.Calm.of_readByte {s u : State} {addr b : Byte} (h : s.Calm)
    (hread : readByte s addr = (b, u)) : u.Calm := by
  obtain ⟨b', d, hafter⟩ := readByte_after s addr
  obtain ⟨-, rfl⟩ := Prod.mk.inj (hafter.symm.trans hread)
  exact h

/-- A 2-byte read takes no move of the host. -/
theorem State.Calm.of_readPair {s u : State} {addr : Byte} {bs : Byte × Byte} (h : s.Calm)
    (hread : readPair s addr = (bs, u)) : u.Calm := by
  obtain ⟨b0, b1, d, hafter⟩ := readPair_after s addr
  obtain ⟨-, rfl⟩ := Prod.mk.inj (hafter.symm.trans hread)
  exact h

/-- A write takes no move of the host. -/
theorem State.Calm.memWrite {s : State} (h : s.Calm) (addr : Byte) (bs : List Byte) :
    (memWrite s addr bs).Calm := h

/-- A delay takes no move of the host. -/
theorem State.Calm.delay {s : State} (h : s.Calm) (ms : Nat) : (delay s ms).Calm := by
  rw [delay_eq]
  exact h

/-- An idle block with no move pending stays as it is, however long it runs (log 10). -/
theorem run_idle {s : State} (h : s.Calm) (hseq : s.seq = .idle) (k : Nat) :
    Host.Core.run Sys2Proof.core k s = .next s := by
  obtain ⟨hrefused, hinbox⟩ := h
  have hstep : step s = .next s := by
    rw [step_no_move hrefused hinbox]
    simp only [advance, hseq]
  induction k with
  | zero => rfl
  | succ k ih => rw [run_step hstep, ih]

/-- The end of a read, in the form of the read it is (R114, R117). -/
def readEnd (scaled : Bool) (p : Option S16 × State) : State :=
  finish (if scaled then scaledResult p.1 else rawResult p.1) p.2

/-- Once a read has ended, the block stays as it is. -/
theorem run_readEnd {s : State} (h : s.Calm) (sc : Bool) (v : Option S16) (k : Nat) :
    Host.Core.run Sys2Proof.core k (readEnd sc (v, s)) = .next (readEnd sc (v, s)) := by
  have hend : (readEnd sc (v, s)).Calm := h
  exact run_idle hend rfl k

section
variable {s : State} (h : s.Calm) (sc : Bool) (m : Option Bit) (c : Option Byte) (r : Option Ratio)
  (f : Option Bit)
include h

/-- A step in the middle of a read is the position the state is at. -/
theorem step_inRead (p : SeqPos) :
    step (s.inRead sc p m c r f) = advance true (s.inRead sc p m c r f) :=
  have ⟨hrefused, hinbox⟩ := h
  step_no_move hrefused hinbox

/-- `S_CHECK` of an initialized instance (R104). -/
theorem step_check (hinit : s.initialized = true) :
    step (s.inRead sc .check m c r f) = .next (s.inRead sc .biasRd m c r f) := by
  rw [step_inRead h]
  exact if_pos hinit

/-- `S_CHECK` of an uninitialized instance (R104). -/
theorem step_check_fails (hinit : s.initialized = false) :
    step (s.inRead sc .check m c r f) = .next (readEnd sc (none, s)) := by
  rw [step_inRead h]
  exact if_neg (Bool.eq_false_iff.1 hinit)

/-- `S_BIAS_RD` in a run (R105). -/
theorem step_biasRd {b : Byte} {u : State} (hread : readByte s Config.addrConfig = (b, u)) :
    step (s.inRead sc .biasRd m c r f) =
      .next (u.inRead sc .biasWr (some (cfgDec b).convMode) (some b) r f) := by
  rw [step_inRead h]
  change atBiasRd _ = _
  rw [atBiasRd, readByte_inRead, hread]
  rfl

/-- `S_BIAS_WR` in a run (R105). -/
theorem step_biasWr (b : Byte) : step (s.inRead sc .biasWr m (some b) r f) =
    .next ((memWrite s Config.addrConfig [biasEnableByte b]).inRead sc .settle m (some b) r f) := by
  rw [step_inRead h]
  rfl

/-- `S_SETTLE` in a run (R106, R107). -/
theorem step_settle (mode : Bit) : step (s.inRead sc .settle (some mode) c r f) =
    .next ((delay s Config.tBiasMs).inRead sc (afterSettle true mode) (some mode) c r f) := by
  rw [step_inRead h, advance_settle rfl rfl, delay_inRead]
  rfl

/-- `S_TRIG_RD` in a run (R108). -/
theorem step_trigRd {b : Byte} {u : State} (hread : readByte s Config.addrConfig = (b, u)) :
    step (s.inRead sc .trigRd m c r f) = .next (u.inRead sc .trigWr m (some b) r f) := by
  rw [step_inRead h]
  change atTrigRd _ = _
  rw [atTrigRd, readByte_inRead, hread]
  rfl

/-- `S_TRIG_WR` in a run (R108). -/
theorem step_trigWr (b : Byte) : step (s.inRead sc .trigWr m (some b) r f) =
    .next ((memWrite s Config.addrConfig [triggerByte b]).inRead sc .conv m (some b) r f) := by
  rw [step_inRead h]
  rfl

/-- `S_CONV` in a run (R109). -/
theorem step_conv : step (s.inRead sc .conv m c r f) =
    .next ((delay s Config.tConvMs).inRead sc .doneRd m c r f) := by
  rw [step_inRead h, advance_conv rfl, delay_inRead]
  rfl

/-- `S_DONE_RD` in a run where `oneshot` is still set (R111). -/
theorem step_doneRd_pending {b : Byte} {u : State} (hread : readByte s Config.addrConfig = (b, u))
    (hb : notFinished b = true) :
    step (s.inRead sc .doneRd m c r f) = .next (readEnd sc (none, u)) := by
  rw [step_inRead h]
  change atDoneRd _ = _
  rw [atDoneRd, readByte_inRead, hread]
  exact if_pos hb

/-- `S_DONE_RD` in a run where `oneshot` is clear (R111). -/
theorem step_doneRd {b : Byte} {u : State} (hread : readByte s Config.addrConfig = (b, u))
    (hb : notFinished b = false) :
    step (s.inRead sc .doneRd m c r f) = .next (u.inRead sc .rtdRd m (some b) r f) := by
  rw [step_inRead h]
  change atDoneRd _ = _
  rw [atDoneRd, readByte_inRead, hread]
  exact if_neg (Bool.eq_false_iff.1 hb)

/-- `S_RTD_RD` in a run (R112). -/
theorem step_rtdRd {r0 r1 : Byte} {u : State} (hread : readPair s Config.addrRtd = ((r0, r1), u)) :
    step (s.inRead sc .rtdRd m c r f) =
      .next (u.inRead sc .unbiasRd m c (some (rtdDec r0 r1).1) (some (rtdDec r0 r1).2)) := by
  rw [step_inRead h]
  change atRtdRd _ = _
  rw [atRtdRd, readPair_inRead, hread]
  rfl

/-- `S_UNBIAS_RD` in a run (R113). -/
theorem step_unbiasRd {b : Byte} {u : State} (hread : readByte s Config.addrConfig = (b, u)) :
    step (s.inRead sc .unbiasRd m c r f) = .next (u.inRead sc .unbiasWr m (some b) r f) := by
  rw [step_inRead h]
  change atUnbiasRd _ = _
  rw [atUnbiasRd, readByte_inRead, hread]
  rfl

/-- `S_UNBIAS_WR` in a run (R113). -/
theorem step_unbiasWr (b : Byte) : step (s.inRead sc .unbiasWr m (some b) r f) =
    .next ((memWrite s Config.addrConfig [biasDisableByte b]).inRead sc .result m (some b) r f) := by
  rw [step_inRead h]
  rfl

/-- `S_RESULT` in a run (R114). -/
theorem step_result (ratio : Ratio) (fault : Bit) :
    step (s.inRead sc .result m c (some ratio) (some fault)) =
      .next (readEnd sc (stepSeven ratio fault, s)) := by
  rw [step_inRead h, advance_result rfl rfl rfl]
  rfl

/-- Steps 5 to 7 take four positions (R112 to R114). -/
theorem run_rtdRd (k : Nat) : Host.Core.run Sys2Proof.core (k + 4) (s.inRead sc .rtdRd m c r f) =
    .next (readEnd sc (readoutSteps s)) := by
  rcases hread : readPair s Config.addrRtd with ⟨⟨r0, r1⟩, u⟩
  rcases hread' : readByte u Config.addrConfig with ⟨b, v⟩
  have hu : u.Calm := h.of_readPair hread
  have hv : v.Calm := hu.of_readByte hread'
  have hsteps : readoutSteps s = (stepSeven (rtdDec r0 r1).1 (rtdDec r0 r1).2,
      memWrite v Config.addrConfig [biasDisableByte b]) := by
    simp only [readoutSteps, hread, hread']
  rw [run_step (step_rtdRd h _ _ _ _ _ hread), run_step (step_unbiasRd hu _ _ _ _ _ hread'),
    run_step (step_unbiasWr hv _ _ _ _ _), run_step (step_result (hv.memWrite ..) _ _ _ _ _),
    run_readEnd (hv.memWrite ..), hsteps]

/-- Step 4 and on takes five positions, or one and then the block is idle (R111). -/
theorem run_doneRd (k : Nat) : Host.Core.run Sys2Proof.core (k + 5) (s.inRead sc .doneRd m c r f) =
    .next (readEnd sc (completionSteps s)) := by
  rcases hread : readByte s Config.addrConfig with ⟨b, u⟩
  have hu : u.Calm := h.of_readByte hread
  cases hb : notFinished b with
  | true =>
    have hsteps : completionSteps s = (none, u) := by simp [completionSteps, hread, hb]
    rw [run_step (step_doneRd_pending h _ _ _ _ _ hread hb), run_readEnd hu, hsteps]
  | false =>
    have hsteps : completionSteps s = readoutSteps u := by simp [completionSteps, hread, hb]
    rw [run_step (step_doneRd h _ _ _ _ _ hread hb), run_rtdRd hu, hsteps]

/-- Step 3 and on takes eight positions (R108, R109). -/
theorem run_trigRd (k : Nat) : Host.Core.run Sys2Proof.core (k + 8) (s.inRead sc .trigRd m c r f) =
    .next (readEnd sc (completionSteps (triggerStep s))) := by
  rcases hread : readByte s Config.addrConfig with ⟨b, u⟩
  have hu : u.Calm := h.of_readByte hread
  have hsteps : triggerStep s = delay (memWrite u Config.addrConfig [triggerByte b]) Config.tConvMs := by
    simp only [triggerStep, hread]
  rw [run_step (step_trigRd h _ _ _ _ _ hread), run_step (step_trigWr hu _ _ _ _ _),
    run_step (step_conv (hu.memWrite ..) _ _ _ _ _), run_doneRd ((hu.memWrite ..).delay _), hsteps]

/-- Step 2 and on takes eleven positions, or eight in AUTO mode (R105 to R107, R110). -/
theorem run_biasRd (hinit : s.initialized = true) (k : Nat) :
    Host.Core.run Sys2Proof.core (k + 11) (s.inRead sc .biasRd m c r f) =
      .next (readEnd sc (readRawSequence true s)) := by
  rcases hread : readByte s Config.addrConfig with ⟨b, u⟩
  have hu : u.Calm := h.of_readByte hread
  have hsteps : biasStep s = ((cfgDec b).convMode,
      delay (memWrite u Config.addrConfig [biasEnableByte b]) Config.tBiasMs) := by
    simp only [biasStep, hread]
  have hsettled : (delay (memWrite u Config.addrConfig [biasEnableByte b]) Config.tBiasMs).Calm :=
    (hu.memWrite ..).delay _
  rw [run_step (step_biasRd h _ _ _ _ _ hread), run_step (step_biasWr hu _ _ _ _ _),
    run_step (step_settle (hu.memWrite ..) _ _ _ _ _)]
  cases hmode : isOneshotMode (cfgDec b).convMode with
  | true =>
    rw [afterSettle, if_pos hmode, run_trigRd hsettled]
    simp [readRawSequence, hinit, hsteps, hmode]
  | false =>
    have hnext : afterSettle true (cfgDec b).convMode = .doneRd := by simp [afterSettle, hmode]
    rw [hnext, run_doneRd hsettled]
    simp [readRawSequence, hinit, hsteps, hmode]

/-- A read takes twelve positions at most (R115). -/
theorem run_check (k : Nat) : Host.Core.run Sys2Proof.core (k + 12) (s.inRead sc .check m c r f) =
    .next (readEnd sc (readRawSequence true s)) := by
  cases hinit : s.initialized with
  | true => rw [run_step (step_check h _ _ _ _ _ hinit), run_biasRd h _ _ _ _ _ hinit]
  | false =>
    rw [run_step (step_check_fails h _ _ _ _ _ hinit), run_readEnd h,
      readRawSequence_uninitialized hinit]

end

/-- The end of a read position by position is the end of the operation as one step. -/
theorem effect_eq_readEnd {i : Instr} (hi : i = .readRaw ∨ i = .readScaled) (s : State) :
    effect i s = readEnd (decide (i = .readScaled)) (readRawSequence true s) := by
  obtain rfl | rfl := hi <;> rfl

/-- Settles O28: issuing the read puts it at `S_CHECK`, and twelve steps are enough for every path. -/
theorem sequencerRunIsTheWholeRead : Obligations.SequencerRunIsTheWholeRead := by
  intro i s hi ready hinbox
  have ⟨_, hrefused, _, _⟩ := ready
  have hs : { { s with inbox := [HostMove.issue (encode i)] } with inbox := [] } = s := by rw [← hinbox]
  have hissue : step { s with inbox := [.issue (encode i)] } =
      .next (startRead (decide (i = .readScaled)) s) := by
    rw [step_move (by exact hrefused) rfl, hs, hostMove, issueCommand_read (decode_encode i) hi,
      accept_ready ready]
  rw [exec_ready ready, effect_eq_readEnd hi]
  exact (run_step hissue 12).trans
    (run_check ⟨hrefused, hinbox⟩ _ s.modeL s.cWork s.rtdRatio s.rtdFault 0)

end Sys2Proof.Machine

/-! PROOFS. The statements about the reference device of 20_memory.md section 6: an INIT in ONESHOT mode and a
READ_RAW after it. -/

namespace Sys2Proof.Machine

/-! ### What the reference device answers -/

/-- RefDev answers a register that has a value with it (R58 a). -/
theorem readByte_refDev {s : State} {ok : Bool} {src : Byte × Byte} {addr b : Byte}
    (h : s.device = .refDev ok src) (hb : s.byteAt addr.toNat = some b) :
    readByte s addr = (b, s.after (.refDev ok src) (s.draws + 1) s.mem [.rd addr [b]]) := by
  have hread : Memory.read? s.mem addr.toNat = some b := hb
  simp [readByte, answerByte, h, hread, emit, State.after]

/-- RefDev answers RTD with its source pair (R58 b). -/
theorem readPair_refDev {s : State} {ok : Bool} {src : Byte × Byte} (h : s.device = .refDev ok src) :
    readPair s Config.addrRtd =
      (src, s.after (.refDev ok src) (s.draws + 2) s.mem [.rd Config.addrRtd [src.1, src.2]]) := by
  simp [readPair, answerPair, h, emit, State.after]

/-- A CONFIG write at the end of a trace is its last one. -/
theorem lastConfigWrite_append_wr (evs : List Event) (b : Byte) :
    lastConfigWrite (evs ++ [.wr Config.addrConfig [b]]) = some b := by
  induction evs with
  | nil => rfl
  | cons e evs ih =>
    rw [List.cons_append, lastConfigWrite.eq_def]
    split
    · simp_all
    · simp_all
    · simp_all

/-- What a delay right after a CONFIG write leaves of the byte written: RefDev clears `oneshot` if the write
set it and the conversion goes well (R58 c). -/
def leftByDelay (ok : Bool) (b : Byte) : Byte := if ok && notFinished b then b &&& 0xDF else b

/-- A delay right after a CONFIG write, on RefDev (R58 c). -/
theorem delay_refDev_of_write (s : State) (ok : Bool) (src : Byte × Byte) (k : Nat) (m : Memory)
    (evs : List Event) (b : Byte) (ms : Nat) :
    delay (s.after (.refDev ok src) k (Memory.write m Config.addrConfig.toNat b)
        (evs ++ [.wr Config.addrConfig [b]])) ms =
      s.after (.refDev ok src) k (Memory.write m Config.addrConfig.toNat (leftByDelay ok b))
        (evs ++ [.wr Config.addrConfig [b], .dly ms]) := by
  have hlast : lastConfigWrite (s.trace ++ (evs ++ [.wr Config.addrConfig [b]])) = some b := by
    rw [← List.append_assoc, lastConfigWrite_append_wr]
  simp only [delay, refDevDelay, after_device, after_trace, after_mem, hlast, Memory.read_write_same,
    leftByDelay]
  split
  · simp [emit, State.after, Memory.write_write_same]
  · simp [emit, State.after]

/-- A CONFIG read, a CONFIG write and a delay on RefDev, as in steps 2 and 3. -/
theorem readWriteDelay_refDev {s : State} {ok : Bool} {src : Byte × Byte} {b : Byte}
    (h : s.device = .refDev ok src) (hb : s.byteAt Config.addrConfig.toNat = some b) (w : Byte) (ms : Nat) :
    delay (memWrite (readByte s Config.addrConfig).2 Config.addrConfig [w]) ms =
      s.after (.refDev ok src) (s.draws + 1)
        (Memory.write s.mem Config.addrConfig.toNat (leftByDelay ok w))
        [.rd Config.addrConfig [b], .wr Config.addrConfig [w], .dly ms] := by
  rw [readByte_refDev h hb, memWrite_of_after]
  exact delay_refDev_of_write ..

/-! ### READ_RAW's steps on it -/

/-- Clearing bit 5 of a byte clears `oneshot` (R60). -/
theorem and_DF_eq (b : Byte) : b &&& 0xDF = cfgEnc { cfgDec b with oneshot := 0 } := by
  ext i hi
  interval_cases i <;> simp [cfgEnc, cfgDec]

/-- A delay leaves a byte that does not set `oneshot`. -/
theorem leftByDelay_of_finished (ok : Bool) {c : CfgRecord} (h : c.oneshot = 0) :
    leftByDelay ok (cfgEnc c) = cfgEnc c := by
  simp [leftByDelay, notFinished, h]

/-- A delay clears `oneshot` where the conversion goes well (R58 c). -/
theorem leftByDelay_of_ok {c : CfgRecord} (h : c.oneshot = 1) :
    leftByDelay true (cfgEnc c) = cfgEnc { c with oneshot := 0 } := by
  have hset : notFinished (cfgEnc c) = true := by simp [notFinished, h]
  rw [leftByDelay, hset, and_DF_eq, cfgDec_cfgEnc]
  rfl

/-- A delay leaves every byte where the conversion does not finish (R58 c). -/
theorem leftByDelay_of_not_ok (b : Byte) : leftByDelay false b = b := rfl

/-- Step 2 on RefDev: its byte does not set `oneshot`, so the delay leaves it (R105). -/
theorem biasStep_refDev {s : State} {ok : Bool} {src : Byte × Byte} {c : CfgRecord}
    (h : s.device = .refDev ok src) (hc : s.byteAt Config.addrConfig.toNat = some (cfgEnc c)) :
    biasStep s = (c.convMode, s.after (.refDev ok src) (s.draws + 1)
      (Memory.write s.mem Config.addrConfig.toNat
        (cfgEnc { c with vbias := 1, oneshot := 0, faultDetect := 0, faultClear := 0 }))
      (biasEvents (cfgEnc c))) := by
  have hbyte : (readByte s Config.addrConfig).1 = cfgEnc c := by rw [readByte_refDev h hc]
  rw [biasStep, readWriteDelay_refDev h hc, hbyte, biasEnableByte, cfgDec_cfgEnc,
    leftByDelay_of_finished ok rfl, biasEvents, biasEnableByte, cfgDec_cfgEnc]

/-- Step 3 on RefDev: the delay leaves what `leftByDelay` says of the trigger byte (R58 c, R108). -/
theorem triggerStep_refDev {s : State} {ok : Bool} {src : Byte × Byte} {c : CfgRecord}
    (h : s.device = .refDev ok src) (hc : s.byteAt Config.addrConfig.toNat = some (cfgEnc c)) :
    triggerStep s = s.after (.refDev ok src) (s.draws + 1)
      (Memory.write s.mem Config.addrConfig.toNat (leftByDelay ok (cfgEnc { c with oneshot := 1 })))
      (triggerEvents (cfgEnc c)) := by
  have hbyte : (readByte s Config.addrConfig).1 = cfgEnc c := by rw [readByte_refDev h hc]
  rw [triggerStep, readWriteDelay_refDev h hc, hbyte, triggerEvents, triggerByte, cfgDec_cfgEnc]

/-- Step 4 on RefDev where `oneshot` is still set in CONFIG: no value, and nothing is written (R111). -/
theorem completionSteps_refDev_pending {s : State} {ok : Bool} {src : Byte × Byte} {c : CfgRecord}
    (h : s.device = .refDev ok src) (hc : s.byteAt Config.addrConfig.toNat = some (cfgEnc c))
    (hone : c.oneshot = 1) :
    (completionSteps s).1 = none ∧ (completionSteps s).2.mem = s.mem := by
  simp [completionSteps, readByte_refDev h hc, notFinished, hone]

/-- Steps 4 to 7 on RefDev where `oneshot` is clear in CONFIG: the source's pair is the reading, and step 6
clears `vbias` (R111 to R114). -/
theorem completionSteps_refDev_finished {s : State} {ok : Bool} {r0 r1 : Byte} {c : CfgRecord}
    (h : s.device = .refDev ok (r0, r1)) (hc : s.byteAt Config.addrConfig.toNat = some (cfgEnc c))
    (hone : c.oneshot = 0) :
    (completionSteps s).1 = stepSeven (rtdDec r0 r1).1 (rtdDec r0 r1).2 ∧
      (completionSteps s).2.byteAt Config.addrConfig.toNat = some (cfgEnc { c with vbias := 0 }) := by
  have hc' : (s.after (.refDev ok (r0, r1)) (s.draws + 1 + 2) s.mem
      [.rd Config.addrConfig [cfgEnc c], .rd Config.addrRtd [r0, r1]]).byteAt
        Config.addrConfig.toNat = some (cfgEnc c) := hc
  simp [completionSteps, readoutSteps, readByte_refDev h hc, notFinished, hone,
    readPair_refDev (after_device ..), readByte_refDev (after_device ..) hc', State.byteAt,
    Memory.read_write_same, biasDisableByte]

/-! ### INIT and READ_RAW -/

/-- A ONESHOT read on RefDev comes to step 4 with what the trigger's delay left in CONFIG (R58, R108). -/
theorem readRawSequence_refDev {s : State} {ok : Bool} {src : Byte × Byte} {c : CfgRecord}
    (hinit : s.initialized = true) (h : s.device = .refDev ok src)
    (hc : s.byteAt Config.addrConfig.toNat = some (cfgEnc c)) (hmode : c.convMode = 0) :
    ∃ u : State, readRawSequence true s = completionSteps u ∧ u.device = .refDev ok src ∧
      u.byteAt Config.addrConfig.toNat = some (leftByDelay ok
        (cfgEnc { c with vbias := 1, oneshot := 1, faultDetect := 0, faultClear := 0 })) := by
  have hbias := biasStep_refDev h hc
  have hdevice : (biasStep s).2.device = .refDev ok src := by rw [hbias]; rfl
  have hconfig : (biasStep s).2.byteAt Config.addrConfig.toNat =
      some (cfgEnc { c with vbias := 1, oneshot := 0, faultDetect := 0, faultClear := 0 }) := by
    rw [hbias]
    exact Memory.read_write_same ..
  have hone : isOneshotMode (biasStep s).1 = true := by rw [hbias, hmode]; rfl
  refine ⟨triggerStep (biasStep s).2, by simp [readRawSequence, hinit, hone], ?_, ?_⟩
  · rw [triggerStep_refDev hdevice hconfig]
    rfl
  · rw [triggerStep_refDev hdevice hconfig]
    exact Memory.read_write_same ..

/-- What an INIT leaves for a READ_RAW after it. -/
theorem effect_init_leaves (tmin tmax : S16) (nw : Bit) (fd : BitVec 2) (fc fl cm : Bit) {s : State}
    (ready : s.Ready) :
    (effect (.init tmin tmax nw fd fc fl cm) s).Ready ∧
    (effect (.init tmin tmax nw fd fc fl cm) s).initialized = true ∧
    (effect (.init tmin tmax nw fd fc fl cm) s).device = s.device ∧
    (effect (.init tmin tmax nw fd fc fl cm) s).byteAt Config.addrConfig.toNat =
      some (cfgEnc (initConfig nw fd fc fl cm)) := by
  obtain ⟨hd, hr, hl, -⟩ := ready
  exact ⟨⟨hd, hr, hl, rfl⟩, rfl, rfl, initWrites_byteAt_config ..⟩

/-- A READ_RAW's result and CONFIG are those its sequence ends with. -/
theorem effect_readRaw_eq {s u : State} (h : readRawSequence true s = completionSteps u) :
    (effect .readRaw s).outcome = some (.returned (rawResult (completionSteps u).1)) ∧
      (effect .readRaw s).mem = (completionSteps u).2.mem := by
  rw [← h]
  exact ⟨rfl, rfl⟩

/-- Settles O50: the trigger's delay clears `oneshot`, so the read is finished and step 6 clears `vbias`. -/
theorem refDevOneshotReading : Obligations.RefDevOneshotReading := by
  intro tmin tmax nw fd fc fl r0 r1 s ready hdevice
  obtain ⟨ready', hinit, hdev, hconfig⟩ :=
    effect_init_leaves tmin tmax nw fd fc fl (convModeCode .oneshot) ready
  obtain ⟨u, hseq, hu, hbyte⟩ := readRawSequence_refDev hinit (hdev.trans hdevice) hconfig rfl
  rw [leftByDelay_of_ok rfl] at hbyte
  obtain ⟨hvalue, hleft⟩ := completionSteps_refDev_finished hu hbyte rfl
  obtain ⟨houtcome, hmem⟩ := effect_readRaw_eq hseq
  refine ⟨_, _, exec_ready ready _, exec_ready ready' .readRaw, ?_, ?_⟩
  · rw [houtcome, hvalue, rawResult_stepSeven]
  · rw [State.byteAt, hmem]
    exact hleft.trans (congrArg some (cfgEnc_eq_append _))

/-- Settles O51: the trigger's delay leaves `oneshot`, so the read ends at step 4. -/
theorem refDevUnfinishedConversionLeavesBias : Obligations.RefDevUnfinishedConversionLeavesBias := by
  intro tmin tmax nw fd fc fl src s ready hdevice
  obtain ⟨ready', hinit, hdev, hconfig⟩ :=
    effect_init_leaves tmin tmax nw fd fc fl (convModeCode .oneshot) ready
  obtain ⟨u, hseq, hu, hbyte⟩ := readRawSequence_refDev hinit (hdev.trans hdevice) hconfig rfl
  rw [leftByDelay_of_not_ok] at hbyte
  obtain ⟨hvalue, hleft⟩ := completionSteps_refDev_pending hu hbyte rfl
  obtain ⟨houtcome, hmem⟩ := effect_readRaw_eq hseq
  refine ⟨_, _, exec_ready ready _, exec_ready ready' .readRaw, ?_, ?_⟩
  · rw [houtcome, hvalue, rawResult]
  · rw [State.byteAt, hmem, hleft]
    exact hbyte.trans (congrArg some (cfgEnc_eq_append _))

end Sys2Proof.Machine

/-! PROOFS. The statement of 41_sequencer.md section 6: `to_binary32` is exact. -/

namespace Sys2Proof.Machine

/-- The bits of a normal binary32 number from its three fields. -/
def binary32Bits (neg : Bool) (e f : Nat) : Nat := (if neg then 2 ^ 31 else 0) + e * 2 ^ 23 + f

/-- The fields of the bits made of them. -/
theorem binary32Bits_fields (neg : Bool) {e f : Nat} (he : e < 2 ^ 8) (hf : f < 2 ^ 23) :
    (BitVec.ofNat 32 (binary32Bits neg e f)).getLsbD 31 = neg ∧
    ((BitVec.ofNat 32 (binary32Bits neg e f)).extractLsb' 23 8).toNat = e ∧
    ((BitVec.ofNat 32 (binary32Bits neg e f)).extractLsb' 0 23).toNat = f := by
  have hbits : (BitVec.ofNat 32 (binary32Bits neg e f)).toNat = binary32Bits neg e f := by
    rw [BitVec.toNat_ofNat, Nat.mod_eq_of_lt]
    cases neg <;> simp [binary32Bits] <;> omega
  rw [BitVec.getLsbD, BitVec.extractLsb'_toNat, BitVec.extractLsb'_toNat, hbits,
    Nat.testBit_eq_decide_div_mod_eq, Nat.shiftRight_eq_div_pow, Nat.shiftRight_eq_div_pow]
  cases neg <;> simp [binary32Bits] <;> omega

/-- The number a normal binary32's fields stand for (R118). -/
theorem binary32Value_bits (neg : Bool) {e f : Nat} (hpos : e ≠ 0) (he : e < 2 ^ 8) (hf : f < 2 ^ 23) :
    binary32Value (BitVec.ofNat 32 (binary32Bits neg e f)) =
      (if neg then -1 else 1) * (1 + (f : ℚ) / 2 ^ 23) * 2 ^ e / 2 ^ 127 := by
  obtain ⟨hsign, hexp, hfrac⟩ := binary32Bits_fields neg he hf
  simp only [binary32Value, hsign, hexp, hfrac, if_neg hpos]

/-- The bits `to_binary32` makes of a number that is not zero (R118). -/
theorem toBinary32_of_ne_zero {v : S16} (h : v.toInt.natAbs ≠ 0) :
    toBinary32 v = BitVec.ofNat 32 (binary32Bits (decide (v.toInt < 0)) (127 + Nat.log2 v.toInt.natAbs)
      ((v.toInt.natAbs - 2 ^ Nat.log2 v.toInt.natAbs) * 2 ^ (23 - Nat.log2 v.toInt.natAbs))) := by
  simp [toBinary32, binary32Bits, h]

/-- A number below its leading power of two doubled, left-justified in 23 bits. -/
theorem fraction_lt {n k : Nat} (hk : k ≤ 23) (hn : n < 2 ^ (k + 1)) :
    (n - 2 ^ k) * 2 ^ (23 - k) < 2 ^ 23 := by
  have hbelow : n - 2 ^ k < 2 ^ k := by rw [pow_succ] at hn; omega
  calc (n - 2 ^ k) * 2 ^ (23 - k) < 2 ^ k * 2 ^ (23 - k) :=
        Nat.mul_lt_mul_of_pos_right hbelow (Nat.two_pow_pos _)
    _ = 2 ^ 23 := by rw [← pow_add, Nat.add_sub_cancel' hk]

/-- The left-justified fraction and the biased exponent give the number back. -/
theorem fraction_value {n k : Nat} (hk : k ≤ 23) (hn : 2 ^ k ≤ n) :
    (1 + (((n - 2 ^ k) * 2 ^ (23 - k) : ℕ) : ℚ) / 2 ^ 23) * 2 ^ (127 + k) / 2 ^ 127 = n := by
  have hpow : (2 : ℚ) ^ 23 = 2 ^ k * 2 ^ (23 - k) := by rw [← pow_add, Nat.add_sub_cancel' hk]
  rw [hpow, pow_add]
  push_cast [hn]
  field_simp
  ring

/-- Settles O27: the leading bit of a number of at most 16 bits and the bits below it fit the format. -/
theorem binary32OfRawIsExact : Obligations.Binary32OfRawIsExact := by
  intro v
  by_cases hzero : v.toInt.natAbs = 0
  · have hv : v.toInt = 0 := Int.natAbs_eq_zero.1 hzero
    simp [toBinary32, hv, binary32Value]
  have hlow : 2 ^ Nat.log2 v.toInt.natAbs ≤ v.toInt.natAbs := Nat.log2_self_le hzero
  have hhigh : v.toInt.natAbs < 2 ^ (Nat.log2 v.toInt.natAbs + 1) := Nat.lt_log2_self
  have hlog : Nat.log2 v.toInt.natAbs < 16 := by
    have hlt := v.toInt_lt
    have hle := v.le_toInt
    exact (Nat.log2_lt hzero).2 (by omega)
  have hsign : (if decide (v.toInt < 0) then -1 else 1 : ℚ) * v.toInt.natAbs = v.toInt := by
    rw [Nat.cast_natAbs]
    by_cases hneg : v.toInt < 0
    · simp [hneg, abs_of_neg hneg]
    · simp [hneg, abs_of_nonneg (not_lt.1 hneg)]
  rw [toBinary32_of_ne_zero hzero,
    binary32Value_bits _ (by omega) (by omega) (fraction_lt (by omega) hhigh), mul_assoc, mul_div_assoc,
    fraction_value (by omega) hlow, hsign]

end Sys2Proof.Machine
